-- ==== Sys2Proof/Word.lean ====
section
/-! DEFINITION. The bus word and the byte lane of the block's port (spec/20_memory.md R60, R63, R66). -/

namespace Sys2Proof

/-- A 32-bit bus word: the only access width of the block (R60, R66), and the width of a command word (R80). -/
abbrev Word := BitVec 32

/-- One byte lane of a bus word (R63). -/
abbrev Byte := BitVec 8

end Sys2Proof
end

