-- ==== Sys2Proof/Config.lean ====
section
/-! DEFINITION. What an implementation fixes: the two OPEN parameters W and BASE (spec/00_scope.md R5, R6;
spec/20_memory.md R70). They are constants of a machine: State holds them, and no step changes them. -/

namespace Sys2Proof

/-- The parameters of one block. `width` is W (R5), which the block reports in ID.W (R21); `base` is BASE (R70). -/
structure Config where
  width : Nat
  base  : Nat
  deriving DecidableEq, Repr

namespace Config

/-- The legal parameters: `8 <= W <= 4095` (R5) and BASE aligned to 0x2000 (R70). -/
def wf (c : Config) : Bool :=
  decide (8 ≤ c.width) && decide (c.width ≤ 4095) && decide (c.base % 0x2000 = 0)

/-- The block that `State.reset` describes: W = 16, as most test vectors of the spec assume, and BASE = 0.
DESIGN CHOICE (logs 1 and 2): both are parameters of the spec. -/
def reference : Config := { width := 16, base := 0 }

end Config

end Sys2Proof
end

