-- ==== Sys2Proof/Syntax.lean ====
section
/-! DEFINITION. The commands of the block, one constructor per row of spec/opcode_table.json, and the fields of the
one command format CMD32 (spec/30_encoding.md R80, R82, R85). -/

namespace Sys2Proof

/-- The twelve commands (R85). A command has no immediate and names no register: its operands are always the latches
(R83, R89). The only variable field is MODRED's S bit (R82, R121). -/
inductive Instr where
  | gcd
  | xgcd
  | modred (signed : Bool)
  | modinv
  | modmul
  | montmul
  | barrett
  | modpow
  | rsakey
  | rsaenc
  | rsadec
  | keyclr
  deriving DecidableEq, Repr

/-- The three fields of a CMD32 word (R82): OP = 7:0, S = 8, RSV = 31:9. -/
structure Cmd32 where
  op  : BitVec 8
  s   : Bool
  rsv : BitVec 23
  deriving DecidableEq, Repr

end Sys2Proof
end

