-- ==== Sys2Proof/WellFormed.lean ====
section
/-! DEFINITION. Which command words are legal (spec/30_encoding.md R86). Every term of `Instr` is a legal command, since
a command has no operand field that could be out of range; what can be ill formed is the raw word. -/

namespace Sys2Proof

namespace Cmd32

/-- RSV must be 0 (R82, R86). -/
def reservedClear (c : Cmd32) : Bool := c.rsv == 0

/-- OP 0x00 and 0x0D to 0xFF are reserved (R85, R86). -/
def opcodeAssigned (c : Cmd32) : Bool := decide (1 ≤ c.op.toNat) && decide (c.op.toNat ≤ 0x0C)

/-- S = 1 is legal only with OP = 0x03 (R82, R86). -/
def signAllowed (c : Cmd32) : Bool := !c.s || c.op == 0x03

/-- A legal command word: none of the three conditions of R86 holds. -/
def wf (c : Cmd32) : Bool := c.reservedClear && c.opcodeAssigned && c.signAllowed

end Cmd32

/-- A command is well formed: no constructor has a field whose value could make the command illegal (R83: no immediate
and no register field; R82: MODRED admits both values of S). -/
def Instr.wf : Instr → Bool
  | .gcd      => true
  | .xgcd     => true
  | .modred _ => true
  | .modinv   => true
  | .modmul   => true
  | .montmul  => true
  | .barrett  => true
  | .modpow   => true
  | .rsakey   => true
  | .rsaenc   => true
  | .rsadec   => true
  | .keyclr   => true

end Sys2Proof
end

