-- ==== Sys2Proof/Decode.lean ====
section
/-! DEFINITION. Decoding a command word, total on every 32-bit word and on any bytes (spec/30_encoding.md R82, R85, R86,
R88), the table of R85 as data, and the encoder. -/

namespace Sys2Proof

/-- Why a word is illegal (R86), or why bytes are no word at all (R66: only whole words exist). The block reports the
first three alike, as ILLEGAL_CMD. -/
inductive DecodeError where
  | reservedBits
  | reservedOpcode
  | strayS
  | notOneWord
  deriving DecidableEq, Repr

namespace Cmd32

/-- The fields of a word (R82). -/
def ofWord (w : Word) : Cmd32 :=
  { op := w.extractLsb' 0 8, s := w.getLsbD 8, rsv := w.extractLsb' 9 23 }

/-- The word with these fields (R82): RSV, S, OP from the most significant end. -/
def toWord (c : Cmd32) : Word := c.rsv ++ BitVec.ofBool c.s ++ c.op

/-- The commands whose word has S = 0 only (R85); OP 0x03 is MODRED, which has both spellings. -/
def plainCommand : Nat → Option Instr
  | 0x01 => some .gcd
  | 0x02 => some .xgcd
  | 0x04 => some .modinv
  | 0x05 => some .modmul
  | 0x06 => some .montmul
  | 0x07 => some .barrett
  | 0x08 => some .modpow
  | 0x09 => some .rsakey
  | 0x0A => some .rsaenc
  | 0x0B => some .rsadec
  | 0x0C => some .keyclr
  | _    => none

/-- The command of a word's fields, or why the word is illegal (R85, R86). -/
def decode (c : Cmd32) : Except DecodeError Instr :=
  if c.rsv ≠ 0 then .error .reservedBits
  else if c.op = 0x03 then .ok (.modred c.s)
  else match plainCommand c.op.toNat with
    | none   => .error .reservedOpcode
    | some i => if c.s then .error .strayS else .ok i

end Cmd32

/-- The decoder: every 32-bit word selects a command or is illegal (R86). -/
def decode (w : Word) : Except DecodeError Instr := (Cmd32.ofWord w).decode

/-- The OP field and the S bit of a command's word (R82, R85); RSV is 0. -/
def Instr.fields : Instr → Cmd32
  | .gcd      => { op := 0x01, s := false, rsv := 0 }
  | .xgcd     => { op := 0x02, s := false, rsv := 0 }
  | .modred b => { op := 0x03, s := b,     rsv := 0 }
  | .modinv   => { op := 0x04, s := false, rsv := 0 }
  | .modmul   => { op := 0x05, s := false, rsv := 0 }
  | .montmul  => { op := 0x06, s := false, rsv := 0 }
  | .barrett  => { op := 0x07, s := false, rsv := 0 }
  | .modpow   => { op := 0x08, s := false, rsv := 0 }
  | .rsakey   => { op := 0x09, s := false, rsv := 0 }
  | .rsaenc   => { op := 0x0A, s := false, rsv := 0 }
  | .rsadec   => { op := 0x0B, s := false, rsv := 0 }
  | .keyclr   => { op := 0x0C, s := false, rsv := 0 }

/-- The encoder: the word of a command (R85). -/
def encode (i : Instr) : Word := i.fields.toWord

/-- The byte on lane `b` of a word: bits [8b+7 : 8b] (R63). -/
def laneByte (w : Word) (b : Nat) : Byte := w.extractLsb' (8 * b) 8

/-- The four lanes of a word, lane 0 (the lowest address of a byte-addressed host) first (R63). -/
def wordBytes (w : Word) : List Byte := [laneByte w 0, laneByte w 1, laneByte w 2, laneByte w 3]

/-- A command read from bytes as a byte-addressed host lays them out (R63). A command is exactly one 32-bit word
(R80, R88), so any other number of bytes is rejected by name. -/
def decodeBytes : List Byte → Except DecodeError Instr
  | [b0, b1, b2, b3] => decode (b3 ++ b2 ++ b1 ++ b0)
  | _                => .error .notOneWord

/-- What the decoder reads from the word `w` of a row of spec/opcode_table.json whose encoding has `nbits` bits: the
bits above `nbits` are 0, the word is laid out lane by lane (R63) and decoded. -/
def decodeTableWord (nbits w : Nat) : Option Instr :=
  if nbits ≤ 32 then
    match decodeBytes (wordBytes (BitVec.ofNat 32 (w % 2 ^ nbits))) with
    | .ok i    => some i
    | .error _ => none
  else none

/-- A row of the opcode map of R85: `word AND mask = pattern` selects the command, whose S bit is bit 8 of the word. -/
structure OpcodeRow where
  pattern : Word
  mask    : Word
  command : Bool → Instr

/-- The opcode map of R85, transcribed row by row. -/
def opcodeTable : List OpcodeRow :=
  [ { pattern := 0x00000001, mask := 0xFFFFFFFF, command := fun _ => .gcd },
    { pattern := 0x00000002, mask := 0xFFFFFFFF, command := fun _ => .xgcd },
    { pattern := 0x00000003, mask := 0xFFFFFEFF, command := fun s => .modred s },
    { pattern := 0x00000004, mask := 0xFFFFFFFF, command := fun _ => .modinv },
    { pattern := 0x00000005, mask := 0xFFFFFFFF, command := fun _ => .modmul },
    { pattern := 0x00000006, mask := 0xFFFFFFFF, command := fun _ => .montmul },
    { pattern := 0x00000007, mask := 0xFFFFFFFF, command := fun _ => .barrett },
    { pattern := 0x00000008, mask := 0xFFFFFFFF, command := fun _ => .modpow },
    { pattern := 0x00000009, mask := 0xFFFFFFFF, command := fun _ => .rsakey },
    { pattern := 0x0000000A, mask := 0xFFFFFFFF, command := fun _ => .rsaenc },
    { pattern := 0x0000000B, mask := 0xFFFFFFFF, command := fun _ => .rsadec },
    { pattern := 0x0000000C, mask := 0xFFFFFFFF, command := fun _ => .keyclr } ]

/-- Row `r` selects word `w` (R85). -/
def OpcodeRow.selects (r : OpcodeRow) (w : Word) : Bool := w &&& r.mask == r.pattern

end Sys2Proof
end

