-- ==== Sys2Proof/Machine/State.lean ====
section
/-! DEFINITION. The state of the block, as plain data, and the reset state (spec/10_state.md R20 to R42). -/

namespace Sys2Proof.Machine

/-- The names of `STATUS.ERR` codes (spec/60_exceptions.md R201). `factorNotFound` (code 4) is reserved: no command of
this block produces it (R4, R201). Codes 7 to 15 have no name: they are never produced (log 15). -/
inductive ErrCode where
  | none
  | noInverse
  | invalidExponent
  | domain
  | factorNotFound
  | illegalCmd
  | keyNotValid
  deriving DecidableEq, Repr

/-- The registers of the window, by slot (R20). Slots 12 to 15 are all `reserved`. -/
inductive Reg where
  | id
  | ctrl
  | cmd
  | status
  | op0
  | op1
  | op2
  | res0
  | res1
  | res2
  | keyN
  | keyE
  | reserved
  deriving DecidableEq, Repr

/-- One access at the block's port: a host address, an access width in bytes and, for a write, the data
(spec/20_memory.md R60). Accesses the block does not support (R66) can be written down: they fault. -/
inductive Access where
  | read  (addr bytes : Nat)
  | write (addr bytes : Nat) (data : Word)
  deriving DecidableEq, Repr

/-- What can happen next at the block: the engine's turn (R40: it completes the command in flight, if there is one),
a host access, or a reset event (spec/70_reset_and_hazards.md R230). -/
inductive Move where
  | engine
  | access (a : Access)
  | reset
  deriving DecidableEq, Repr

/-- Why a step stops. -/
inductive Fault where
  /-- Raised by a host access the block does not support: not 32 bits wide, misaligned, or outside the window (R66,
  R206). The block answers with a bus error and changes no state. Safe (log 6). -/
  | busError (addr bytes : Nat)
  deriving DecidableEq, Repr

/-- Why the model gives a step no meaning. -/
inductive Refusal where
  /-- A command that has no meaning in the model yet. Raised only by an arm of `exec`; no arm raises it. Safe. -/
  | notModelled (mnemonic : String)
  deriving DecidableEq, Repr

/-- The state of the block. Registers of width W and W+1 hold natural numbers (R8, R26 to R32); that they stay in range
is the invariant `Safety.State.InRange` (log 9). `cfg`, `moves` and `responses` are described in logs 1 to 5. -/
structure State where
  /-- W and BASE: constants (R5, R70). ID is computed from W (R21). -/
  cfg       : Config
  /-- CTRL.IE (R22). -/
  ie        : Bool
  /-- STATUS.BUSY (R24): a command is in flight (R40). -/
  busy      : Bool
  /-- STATUS.DONE (R24). -/
  done      : Bool
  /-- STATUS.ERR (R24, R201). -/
  err       : ErrCode
  /-- STATUS.OVR (R24). -/
  ovr       : Bool
  /-- STATUS.KEY_VALID (R24). -/
  keyValid  : Bool
  /-- OP0 to OP2: W bits (R26). -/
  op0       : Nat
  op1       : Nat
  op2       : Nat
  /-- RES0: W bits (R27). -/
  res0      : Nat
  /-- RES1 and RES2: (W+1)-bit two's-complement patterns (R28). -/
  res1      : Nat
  res2      : Nat
  /-- KEY_N, KEY_E: W bits, read-only (R30, R31). -/
  keyN      : Nat
  keyE      : Nat
  /-- KEY_D: W bits, no address (R32). -/
  keyD      : Nat
  /-- L[0], L[1], L[2]: hidden operand latches, W bits (R38). -/
  l0        : Nat
  l1        : Nat
  l2        : Nat
  /-- LCMD: hidden latch of the accepted command word (R38). -/
  lcmd      : Word
  /-- The model's own: what happens next, in order (R72, R240; logs 3 and 4). -/
  moves     : List Move
  /-- The model's own: the values bus reads have returned to the host, oldest first (R64; log 5). -/
  responses : List Word
  deriving DecidableEq, Repr

/-- A block with parameters `c` right after reset (R42): everything 0, no command in flight; nothing pending at its port
and nothing read yet (logs 3 and 5). -/
def State.resetWith (c : Config) : State :=
  { cfg := c, ie := false, busy := false, done := false, err := .none, ovr := false, keyValid := false,
    op0 := 0, op1 := 0, op2 := 0, res0 := 0, res1 := 0, res2 := 0, keyN := 0, keyE := 0, keyD := 0,
    l0 := 0, l1 := 0, l2 := 0, lcmd := 0, moves := [], responses := [] }

/-- The state right after reset (R42) of the reference block (logs 1 and 2). -/
def State.reset : State := State.resetWith Config.reference

/-- The three outcomes of a step of this block. -/
abbrev Result := Host.Outcome State Fault Refusal

end Sys2Proof.Machine
end

