-- ==== Sys2Proof/Machine/Arith.lean ====
section
/-! DEFINITION. The reference functions on exact integers that give the commands their results
(spec/40_gcd_xgcd.md R100, R101; spec/41_modred_modinv.md R120, R122; spec/43_modpow.md R160). A loop of the spec is a
recursion on a bound that the spec's own measure never exceeds (log 11). -/

namespace Sys2Proof.Machine

/-- The loop of `gcdE` (R100), for at most `fuel` rounds. -/
def gcdLoop : Nat → Nat → Nat → Nat
  | 0, a, _ => a
  | fuel + 1, a, b => if b = 0 then a else gcdLoop fuel b (a % b)

/-- Euclid's algorithm (R100). Each round makes the second argument smaller, so `b` rounds suffice. -/
def gcdE (a b : Nat) : Nat := gcdLoop b a b

/-- The recurrence of `xgcdR` (R101), to depth `fuel`. -/
def xgcdRec : Nat → Nat → Nat → Nat × Int × Int
  | 0, a, _ => (a, 1, 0)
  | fuel + 1, a, b =>
    if b = 0 then (a, 1, 0)
    else
      match xgcdRec fuel b (a % b) with
      | (g, x, y) => (g, y, x - ((a / b : Nat) : Int) * y)

/-- Extended Euclid by the source's recurrence (R101), which fixes the Bézout pair. The second argument strictly
decreases, so depth `b` suffices. -/
def xgcdR (a b : Nat) : Nat × Int × Int := xgcdRec b a b

/-- `modRed(a, n)` (R120): the truncating remainder, with the single correction. Asked only for `n > 0`. -/
def modRed (a : Int) (n : Nat) : Nat :=
  let r := a - (n : Int) * a.tdiv n
  if r < 0 then (r + n).toNat else r.toNat

/-- `modInv(a, n)` (R122): `none` is NO_INVERSE. Asked only for `n > 0`. -/
def modInv (a n : Nat) : Option Nat :=
  match xgcdR a n with
  | (g, x, _) => if g ≠ 1 then none else some (modRed x n)

/-- The inverse that R142 and R181 take where they say that it exists: the two operands are coprime there, and the
default is never taken (log 10). -/
def modInvExists (a n : Nat) : Nat := (modInv a n).getD 0

/-- The binary chain of `modPow` (R160), right to left, for at most `fuel` bits of the exponent. -/
def modPowLoop : Nat → Nat → Nat → Nat → Nat → Nat
  | 0, r, _, _, _ => r
  | fuel + 1, r, b, e, n =>
    if e = 0 then r
    else modPowLoop fuel (if e % 2 = 1 then (r * b) % n else r) ((b * b) % n) (e / 2) n

/-- `modPow(base, e, n)` (R160). Each round halves the exponent, so `e` rounds suffice. Asked only for `n > 0`. -/
def modPow (base e n : Nat) : Nat := modPowLoop e (1 % n) (base % n) e n

end Sys2Proof.Machine
end

