-- ==== Sys2Proof/Machine/Flags.lean ====
section
/-! DEFINITION. The words of ID, CTRL and STATUS as a host reads them, the STATUS write, and the interrupt output
(spec/10_state.md R21 to R25, R35, R41; spec/60_exceptions.md R201, R209). There are no arithmetic flags (R35). -/

namespace Sys2Proof.Machine

/-- The number of an error code (R201). -/
def ErrCode.code : ErrCode → BitVec 4
  | .none            => 0
  | .noInverse       => 1
  | .invalidExponent => 2
  | .domain          => 3
  | .factorNotFound  => 4
  | .illegalCmd      => 5
  | .keyNotValid     => 6

/-- ID: MAGIC 0x4D4D in 31:16, VERSION 1 in 15:12, W in 11:0 (R21). -/
def idWord (c : Config) : Word := 0x4D4D#16 ++ 1#4 ++ BitVec.ofNat 12 c.width

/-- CTRL: IE in bit 0, the rest reads 0 (R22). -/
def ctrlWord (s : State) : Word := 0#31 ++ BitVec.ofBool s.ie

/-- STATUS: BUSY 0, DONE 1, ERR 7:4, OVR 8, KEY_VALID 9, the rest reads 0 (R24). -/
def statusWord (s : State) : Word :=
  0#22 ++ BitVec.ofBool s.keyValid ++ BitVec.ofBool s.ovr ++ s.err.code ++ 0#2 ++ BitVec.ofBool s.done ++
    BitVec.ofBool s.busy

namespace State

/-- The interrupt output (R41, R209). -/
def irq (s : State) : Bool := s.ie && s.done

/-- A write of `v` to CTRL: bit 0 goes to IE, the other bits are ignored (R22, R65). -/
def writeCtrl (v : Word) (s : State) : State := { s with ie := v.getLsbD 0 }

/-- A write of `v` to STATUS: a 1 in bit 1 clears DONE, a 1 in bit 8 clears OVR, the other bits are ignored (R25). -/
def writeStatus (v : Word) (s : State) : State :=
  { s with done := s.done && !v.getLsbD 1, ovr := s.ovr && !v.getLsbD 8 }

end State

end Sys2Proof.Machine
end

