-- ==== Sys2Proof/Machine/Operands.lean ====
section
/-! DEFINITION. The bit-level functions of spec/00_scope.md R8 and every operand form a command has
(spec/30_encoding.md R83, R89): a latch read unsigned, MODRED.S's signed L[0], BARRETT's double-width value. -/

namespace Sys2Proof.Machine

/-- `zext_N(v)`: the natural `v[N-1:0]` (R8). -/
def zext (n v : Nat) : Nat := v % 2 ^ n

/-- `sext_N(v)`: the low N bits of `v` read as two's complement, `v[N-1:0] - 2^N * v[N-1]` (R8). -/
def sext (n v : Nat) : Int := ((v % 2 ^ n : Nat) : Int) - 2 ^ n * ((v / 2 ^ (n - 1) % 2 : Nat) : Int)

/-- `enc_N(i)`: the N-bit two's-complement pattern `i mod 2^N` (R8). -/
def enc (n : Nat) (i : Int) : Nat := (i % 2 ^ n).toNat

/-- Word `j` of a W-bit unsigned register: `(v div 2^(32j)) mod 2^32` (R62, R64). -/
def wordOf (v j : Nat) : Word := BitVec.ofNat 32 (v / 2 ^ (32 * j))

/-- Word `j` of a signed register holding the integer `i`: `(i div 2^(32j)) mod 2^32`, floor division, so that words
above the sign bit are copies of it (R28, R64). -/
def signedWordOf (i : Int) (j : Nat) : Word := BitVec.ofInt 32 (i / 2 ^ (32 * j))

/-- A W-bit register after the 32-bit slice `j` is written with `v`; bits at and above W are dropped, and a word wholly
above W is ignored (R65). -/
def withWord (width old j : Nat) (v : Word) : Nat :=
  if 32 * j < width then
    zext width (old - old / 2 ^ (32 * j) % 2 ^ 32 * 2 ^ (32 * j) + v.toNat * 2 ^ (32 * j))
  else old

namespace State

/-- W of this block (R5, R21). -/
abbrev width (s : State) : Nat := s.cfg.width

/-- The first operand of a command, L[0], read unsigned (R83, R89). -/
abbrev first (s : State) : Nat := s.l0

/-- The second operand, L[1], read unsigned (R83, R89). -/
abbrev second (s : State) : Nat := s.l1

/-- The third operand, L[2], read unsigned: the modulus of every modular command and RSAKEY's `e` (R83, R89). -/
abbrev third (s : State) : Nat := s.l2

/-- L[0] as MODRED reads it: signed in W bits when S = 1, else unsigned (R83, R121). -/
def firstAs (signed : Bool) (s : State) : Int := if signed then sext s.width s.l0 else (s.l0 : Int)

/-- BARRETT's double-width operand `{L[0], L[1]} = L[0] * 2^W + L[1]` (R145). -/
def wide (s : State) : Nat := s.l0 * 2 ^ s.width + s.l1

end State

end Sys2Proof.Machine
end

