-- ==== Sys2Proof/Machine/Ops.lean ====
section
/-! DEFINITION. The named operations over the block's state: how a command ends, with success (spec/10_state.md R40) or
with an error (spec/60_exceptions.md R204), which is this block's only counterpart of taking an exception (R208), and
the counterparts of returning from one; accepting a command (R39); bus reads and writes (spec/20_memory.md R61 to R67);
reset (R42, R230). -/

namespace Sys2Proof.Machine

namespace State

/-- The end of every completion step: ERR takes the code, BUSY falls and DONE rises (R40, R204). -/
def finish (code : ErrCode) (s : State) : State := { s with err := code, busy := false, done := true }

/-- RES0 takes a command's result (R27, R29). -/
def withRes0 (v : Nat) (s : State) : State := { s with res0 := v }

/-- RES0, RES1, RES2 take XGCD's results; `x` and `y` are stored as (W+1)-bit patterns (R28, R104). -/
def withBezout (g : Nat) (x y : Int) (s : State) : State :=
  { s with res0 := g, res1 := enc (s.width + 1) x, res2 := enc (s.width + 1) y }

/-- RSAKEY writes the key and KEY_VALID together (R29, R181). -/
def withKey (n e d : Nat) (s : State) : State := { s with keyN := n, keyE := e, keyD := d, keyValid := true }

/-- KEYCLR clears the key and KEY_VALID (R29, R187). -/
def withoutKey (s : State) : State := { s with keyN := 0, keyE := 0, keyD := 0, keyValid := false }

/-- A CMD write of `c` that the block accepts (R39): the word and the operands are latched, ERR and DONE are cleared,
BUSY rises. Clearing DONE here is one of the two counterparts of a return from an exception (R208). -/
def accept (c : Word) (s : State) : State :=
  { s with lcmd := c, l0 := s.op0, l1 := s.op1, l2 := s.op2, err := .none, done := false, busy := true }

/-- A CMD write while a command runs is dropped and flagged (R39, R207). -/
def overrun (s : State) : State := { s with ovr := true }

/-- Any CMD write (R39). -/
def writeCmd (c : Word) (s : State) : State := if s.busy then s.overrun else s.accept c

/-- The value a bus read returned reaches the host (R64; log 5). -/
def respond (v : Word) (s : State) : State := { s with responses := s.responses ++ [v] }

/-- Reset (R42, R230, R231): every piece of the block's state takes its reset value. What the host has still to send and
what it has read are not the block's and stay (log 7). -/
def resetBlock (s : State) : State := { resetWith s.cfg with moves := s.moves, responses := s.responses }

/-- The rest of the pending moves, once the first has been taken. -/
def popMove (s : State) : State := { s with moves := s.moves.tail }

end State

/-- `complete(results)` (R40): `s` is the state in which the command's rule has written its results. -/
def complete (s : State) : Result := .next (s.finish .none)

/-- `raise Error(CODE)` (R204): ERR takes the code, BUSY falls, DONE rises, and nothing else changes. -/
def raiseError (code : ErrCode) (s : State) : Result := .next (s.finish code)

/-- The register in slot `k` of the window (R20, R61). -/
def regOfSlot : Nat → Reg
  | 0  => .id
  | 1  => .ctrl
  | 2  => .cmd
  | 3  => .status
  | 4  => .op0
  | 5  => .op1
  | 6  => .op2
  | 7  => .res0
  | 8  => .res1
  | 9  => .res2
  | 10 => .keyN
  | 11 => .keyE
  | _  => .reserved

/-- Word `j` of register `r` as a host reads it (R64, R67). -/
def readReg (r : Reg) (j : Nat) (s : State) : Word :=
  match r with
  | .id       => if j = 0 then idWord s.cfg else 0
  | .ctrl     => if j = 0 then ctrlWord s else 0
  | .cmd      => 0
  | .status   => if j = 0 then statusWord s else 0
  | .op0      => wordOf s.op0 j
  | .op1      => wordOf s.op1 j
  | .op2      => wordOf s.op2 j
  | .res0     => wordOf s.res0 j
  | .res1     => signedWordOf (sext (s.width + 1) s.res1) j
  | .res2     => signedWordOf (sext (s.width + 1) s.res2) j
  | .keyN     => wordOf s.keyN j
  | .keyE     => wordOf s.keyE j
  | .reserved => 0

/-- A host write of `v` to word `j` of register `r` (R65, R67). -/
def writeReg (r : Reg) (j : Nat) (v : Word) (s : State) : State :=
  match r with
  | .ctrl     => if j = 0 then s.writeCtrl v else s
  | .cmd      => if j = 0 then s.writeCmd v else s
  | .status   => if j = 0 then s.writeStatus v else s
  | .op0      => { s with op0 := withWord s.width s.op0 j v }
  | .op1      => { s with op1 := withWord s.width s.op1 j v }
  | .op2      => { s with op2 := withWord s.width s.op2 j v }
  | .id       => s
  | .res0     => s
  | .res1     => s
  | .res2     => s
  | .keyN     => s
  | .keyE     => s
  | .reserved => s

/-- The slot of a window offset (R61, R64). -/
def slotOf (off : Nat) : Nat := off / 0x200

/-- The word of a window offset inside its slot (R61, R64). -/
def wordIndex (off : Nat) : Nat := off % 0x200 / 4

/-- `BusRead(off)` (R64): the value returned; the block's state does not change (R69). -/
def busRead (off : Nat) (s : State) : Word := readReg (regOfSlot (slotOf off)) (wordIndex off) s

/-- `BusWrite(off, v)` (R65), one atomic step (R68). -/
def busWrite (off : Nat) (v : Word) (s : State) : State :=
  writeReg (regOfSlot (slotOf off)) (wordIndex off) v s

/-- The accesses the block supports (R66): 32 bits wide, inside the window at BASE (R61, R70), at a multiple of 4. -/
def supported (c : Config) (addr bytes : Nat) : Bool :=
  decide (bytes = 4) && decide (c.base ≤ addr) && decide (addr < c.base + 0x2000) && decide ((addr - c.base) % 4 = 0)

/-- One host access at the port (R60, R64, R65); an unsupported one is a bus error and a fault of the host's step
(R66, R206). -/
def hostAccess (a : Access) (s : State) : Result :=
  match a with
  | .read addr bytes =>
    if supported s.cfg addr bytes then .next (s.respond (busRead (addr - s.cfg.base) s))
    else .fault (.busError addr bytes)
  | .write addr bytes v =>
    if supported s.cfg addr bytes then .next (busWrite (addr - s.cfg.base) v s)
    else .fault (.busError addr bytes)

end Sys2Proof.Machine
end

