-- ==== Sys2Proof/Machine/Gcd.lean ====
section
/-! DEFINITION. The meanings of GCD and XGCD (spec/40_gcd_xgcd.md R103, R104). -/

namespace Sys2Proof.Machine

/-- GCD (R103): RES0 takes `gcdE(L[0], L[1])`. -/
def execGcd (s : State) : Result := complete (s.withRes0 (gcdE s.first s.second))

/-- XGCD (R104): RES0, RES1 and RES2 take the triple of `xgcdR(L[0], L[1])`. -/
def execXgcd (s : State) : Result :=
  match xgcdR s.first s.second with
  | (g, x, y) => complete (s.withBezout g x y)

end Sys2Proof.Machine
end

