-- ==== Sys2Proof/Machine/ModMul.lean ====
section
/-! DEFINITION. The meanings of MODMUL, MONTMUL and BARRETT (spec/42_modmul.md R140, R142, R145). -/

namespace Sys2Proof.Machine

/-- MODMUL (R140): RES0 takes the exact product `L[0] * L[1]` reduced modulo L[2]. -/
def execModmul (s : State) : Result :=
  if s.third = 0 then raiseError .domain s
  else complete (s.withRes0 (s.first * s.second % s.third))

/-- MONTMUL (R142): RES0 takes `L[0] * L[1] * Rinv mod L[2]`, with `Rinv` the inverse of `2^W mod L[2]`. -/
def execMontmul (s : State) : Result :=
  if s.third = 0 ∨ s.third % 2 = 0 then raiseError .domain s
  else if s.third ≤ s.first ∨ s.third ≤ s.second then raiseError .domain s
  else complete (s.withRes0 (s.first * s.second * modInvExists (2 ^ s.width % s.third) s.third % s.third))

/-- BARRETT (R145): RES0 takes `L[0] * 2^W + L[1]` reduced modulo L[2]. -/
def execBarrett (s : State) : Result :=
  if s.third = 0 then raiseError .domain s
  else complete (s.withRes0 (s.wide % s.third))

end Sys2Proof.Machine
end

