-- ==== Sys2Proof/Machine/ModPow.lean ====
section
/-! DEFINITION. The meaning of MODPOW (spec/43_modpow.md R161). -/

namespace Sys2Proof.Machine

/-- MODPOW (R161): RES0 takes `modPow(L[0], L[1], L[2])`. -/
def execModpow (s : State) : Result :=
  if s.third = 0 then raiseError .domain s
  else complete (s.withRes0 (modPow s.first s.second s.third))

end Sys2Proof.Machine
end

