-- ==== Sys2Proof/Machine/ModRed.lean ====
section
/-! DEFINITION. The meanings of MODRED and MODINV (spec/41_modred_modinv.md R121, R123). -/

namespace Sys2Proof.Machine

/-- MODRED (R121): RES0 takes `modRed(a, L[2])`, where `a` is L[0], signed when S = 1 (log 18). -/
def execModred (signed : Bool) (s : State) : Result :=
  if s.third = 0 then raiseError .domain s
  else complete (s.withRes0 (modRed (s.firstAs signed) s.third))

/-- MODINV (R123): RES0 takes `modInv(L[0], L[2])`. -/
def execModinv (s : State) : Result :=
  if s.third = 0 then raiseError .domain s
  else
    match modInv s.first s.third with
    | none   => raiseError .noInverse s
    | some r => complete (s.withRes0 r)

end Sys2Proof.Machine
end

