-- ==== Sys2Proof/Machine/Rsa.lean ====
section
/-! DEFINITION. The meanings of RSAKEY, RSAENC, RSADEC and KEYCLR (spec/44_rsa.md R180 to R187). -/

namespace Sys2Proof.Machine

/-- `λ = (p-1)(q-1)` (R180): Euler's totient for distinct primes, never `lcm(p-1, q-1)`. -/
def lambda (p q : Nat) : Nat := (p - 1) * (q - 1)

/-- RSAKEY (R181): with `p = L[0]`, `q = L[1]`, `e = L[2]`, the key takes `p*q`, `e` and the inverse of `e` modulo `λ`. -/
def execRsakey (s : State) : Result :=
  if s.first < 2 ∨ s.second < 2 then raiseError .domain s
  else if 2 ^ s.width ≤ s.first * s.second then raiseError .domain s
  else if gcdE s.third (lambda s.first s.second) ≠ 1 then raiseError .invalidExponent s
  else
    complete
      (s.withKey (s.first * s.second) s.third (modInvExists s.third (lambda s.first s.second)))

/-- RSAENC (R184): RES0 takes `modPow(L[0], KEY_E, KEY_N)`. -/
def execRsaenc (s : State) : Result :=
  if s.keyValid = false then raiseError .keyNotValid s
  else if s.keyN ≤ s.first then raiseError .domain s
  else complete (s.withRes0 (modPow s.first s.keyE s.keyN))

/-- RSADEC (R185): RES0 takes `modPow(L[0], KEY_D, KEY_N)`; the one result that reads KEY_D (R32). -/
def execRsadec (s : State) : Result :=
  if s.keyValid = false then raiseError .keyNotValid s
  else if s.keyN ≤ s.first then raiseError .domain s
  else complete (s.withRes0 (modPow s.first s.keyD s.keyN))

/-- KEYCLR (R187): the key and KEY_VALID are cleared. -/
def execKeyclr (s : State) : Result := complete s.withoutKey

end Sys2Proof.Machine
end

