-- ==== Sys2Proof/Machine/Dispatch.lean ====
section
/-! DEFINITION. The completion step of each command (spec/10_state.md R40; spec/30_encoding.md R81, R85). -/

namespace Sys2Proof.Machine

def exec (i : Instr) (s : State) : Host.Outcome State Fault Refusal :=
  match i with
  | .gcd => Sys2Proof.Machine.execGcd s
  | .xgcd => Sys2Proof.Machine.execXgcd s
  | .modred signed => Sys2Proof.Machine.execModred signed s
  | .modinv => Sys2Proof.Machine.execModinv s
  | .modmul => Sys2Proof.Machine.execModmul s
  | .montmul => Sys2Proof.Machine.execMontmul s
  | .barrett => Sys2Proof.Machine.execBarrett s
  | .modpow => Sys2Proof.Machine.execModpow s
  | .rsakey => Sys2Proof.Machine.execRsakey s
  | .rsaenc => Sys2Proof.Machine.execRsaenc s
  | .rsadec => Sys2Proof.Machine.execRsadec s
  | .keyclr => Sys2Proof.Machine.execKeyclr s

end Sys2Proof.Machine
end

