-- ==== Sys2Proof/Machine/Engine.lean ====
section
/-! DEFINITION. The engine's turn: the completion step (spec/10_state.md R40), which decodes the latched word
(spec/30_encoding.md R81, R86), and the effect of each move at the block. -/

namespace Sys2Proof.Machine

/-- The completion of an illegal word (R86, R201): ILLEGAL_CMD, before every other check (R203). -/
def execIllegal (s : State) : Result := raiseError .illegalCmd s

/-- The completion step of the latched word LCMD (R40, R86). -/
def completion (s : State) : Result :=
  match decode s.lcmd with
  | .ok i    => exec i s
  | .error _ => execIllegal s

/-- The engine's turn: completion is enabled exactly when BUSY = 1 (R40); an idle engine does nothing (R217; log 16). -/
def engineTurn (s : State) : Result := if s.busy then completion s else .next s

/-- The effect of one move on a state from which it has been taken. -/
def takeMove (m : Move) (s : State) : Result :=
  match m with
  | .engine   => engineTurn s
  | .access a => hostAccess a s
  | .reset    => .next s.resetBlock

end Sys2Proof.Machine
end

