-- ==== Sys2Proof/Machine/Step.lean ====
section
/-! DEFINITION. One step of the block: the next move takes effect, completely and alone (spec/20_memory.md R72, R73).
When no input is pending the engine is next, which is the fairness of spec/70_reset_and_hazards.md R240 (log 4). -/

namespace Sys2Proof.Machine

/-- One step (R72, R73, R240). -/
def step (s : State) : Host.Outcome State Fault Refusal :=
  match s.moves with
  | []     => engineTurn s
  | m :: _ => takeMove m s.popMove

/-- `s` with the command word `w` accepted (R39) and the engine next, so that the very next step completes it. The block
fetches nothing (R36, R76): this stands for a host's write of `w` to CMD while no command is in flight (log 8). Bits
above `nbits` are 0. -/
def State.withFetchWord (s : State) (nbits w : Nat) : State :=
  { s.accept (BitVec.ofNat 32 (w % 2 ^ nbits)) with moves := .engine :: s.moves }

end Sys2Proof.Machine
end

