-- ==== Sys2Proof/Machine/Notation.lean ====
section
/-! DEFINITION. The host's notation as traces of what happens at the block's port (spec/30_encoding.md R90, R91). The
host's own control flow and temporaries are outside the spec (R36): a value the host has read is an argument here, and
WAIT is the trace of its polls (log 14). How many words an operand write or a result read takes is the model's choice
where W > 32 (logs 21 and 22). -/

namespace Sys2Proof.Machine

/-- The slot of a register (R20); `reserved` stands for slot 12. -/
def Reg.slot : Reg → Nat
  | .id       => 0
  | .ctrl     => 1
  | .cmd      => 2
  | .status   => 3
  | .op0      => 4
  | .op1      => 5
  | .op2      => 6
  | .res0     => 7
  | .res1     => 8
  | .res2     => 9
  | .keyN     => 10
  | .keyE     => 11
  | .reserved => 12

/-- The host address of word `j` of a register: `BASE + off(REG) + 4*j` (R61, R70, R90). -/
def wordAddr (c : Config) (r : Reg) (j : Nat) : Nat := c.base + r.slot * 0x200 + 4 * j

/-- `WR REG.j, v` (R90). -/
def wrWord (c : Config) (r : Reg) (j : Nat) (v : Word) : Move := .access (.write (wordAddr c r j) 4 v)

/-- `RD REG.j` (R90). -/
def rdWord (c : Config) (r : Reg) (j : Nat) : Move := .access (.read (wordAddr c r j) 4)

/-- How many words a W-bit register has: `ceil(W/32)` (R61, R90). -/
def wordCount (c : Config) : Nat := (c.width + 31) / 32

/-- `WR OPk, v`: one write for each of the `ceil(W/32)` words, in increasing `j`. R90 says so of a value wider than a word.
DESIGN CHOICE (log 21): the model writes every word for a smaller value too, the upper words with 0, which the results of
R91 need and R245 asks of a host; R90 read to the letter gives such a value one write of word 0. -/
def wrWide (c : Config) (r : Reg) (v : Nat) : List Move :=
  (List.range (wordCount c)).map fun j => wrWord c r j (wordOf v j)

/-- `CMDW 0xhhhhhhhh` (R90). -/
def cmdw (c : Config) (w : Word) : Move := wrWord c .cmd 0 w

/-- `CMD MNEMONIC` (R90). -/
def cmdLine (c : Config) (i : Instr) : Move := cmdw c (encode i)

/-- `WAIT` (R90): `polls` reads of STATUS while the command runs, its completion, and the read that finds BUSY = 0. -/
def waitTrace (c : Config) (polls : Nat) : List Move :=
  List.replicate polls (rdWord c .status 0) ++ [.engine, rdWord c .status 0]

/-- An operand that is given is written, every word of it (log 21); one that is omitted leaves its register alone (R91). -/
def wrIfGiven (c : Config) (r : Reg) : Option Nat → List Move
  | none   => []
  | some v => wrWide c r v

/-- `OPNAME o0[, o1[, o2]]` (R91); each operand that is given is written whole, upper words of 0 included (log 21). -/
def opLine (c : Config) (i : Instr) (o0 : Nat) (o1 o2 : Option Nat) (polls : Nat) : List Move :=
  wrWide c .op0 o0 ++ wrIfGiven c .op1 o1 ++ wrIfGiven c .op2 o2 ++ [cmdLine c i] ++ waitTrace c polls

/-- `MODRED.U a, n` (R91). -/
def modredU (c : Config) (a n polls : Nat) : List Move := opLine c (.modred false) a (some 0) (some n) polls

/-- `MODSQR a, n` (R91). -/
def modsqr (c : Config) (a n polls : Nat) : List Move := opLine c .modmul a (some a) (some n) polls

/-- `RMODN n` (R91). -/
def rmodn (c : Config) (n polls : Nat) : List Move := opLine c .barrett 1 (some 0) (some n) polls

/-- How the host reads a W-bit result that a macro of R91 uses: `RD REG.j` for every word. DESIGN CHOICE (log 22): R90
defines RD as one read of one word and has no shorthand for a wide read; the model reads every word, in increasing `j`. -/
def rdWide (c : Config) (r : Reg) : List Move := (List.range (wordCount c)).map fun j => rdWord c r j

/-- `R2MODN n` (R91): `r` is the value the host reads from RES0 after RMODN, word by word (log 22). -/
def r2modn (c : Config) (n r polls polls' : Nat) : List Move :=
  rmodn c n polls ++ rdWide c .res0 ++ opLine c .modmul r (some r) (some n) polls'

/-- `TOMONT a, n` (R91): `r` and `r2` are the values the host reads from RES0, word by word (log 22), after RMODN and after
R2MODN. -/
def tomont (c : Config) (a n r r2 polls polls' polls'' : Nat) : List Move :=
  r2modn c n r polls polls' ++ rdWide c .res0 ++ opLine c .montmul a (some r2) (some n) polls''

/-- `FROMMONT a, n` (R91). -/
def frommont (c : Config) (a n polls : Nat) : List Move := opLine c .montmul a (some 1) (some n) polls

/-- `CLRDONE` (R91). -/
def clrdone (c : Config) : Move := wrWord c .status 0 0x00000002

/-- `CLROVR` (R91). -/
def clrovr (c : Config) : Move := wrWord c .status 0 0x00000100

end Sys2Proof.Machine
end

