-- ==== Sys2Proof/Machine/Reference.lean ====
section
/-! DEFINITION. The spec's other algorithms for the same results: the iterative extended Euclid (spec/40_gcd_xgcd.md
R102), Montgomery's REDC (spec/42_modmul.md R143), Barrett's estimate with corrections (R146), and the binary
chain with its modular products counted (spec/43_modpow.md R160, R163). No meaning of a command uses them: the commands' rules fix the
results, and the statements say that these algorithms give them. -/

namespace Sys2Proof.Machine

/-- The loop of `xgcdI` (R102), for at most `fuel` rounds. -/
def xgcdLoop : Nat → Nat → Nat → Int → Int → Int → Int → Nat × Int × Int
  | 0, r0, _, s0, _, t0, _ => (r0, s0, t0)
  | fuel + 1, r0, r1, s0, s1, t0, t1 =>
    if r1 = 0 then (r0, s0, t0)
    else
      let q := r0 / r1
      xgcdLoop fuel r1 (r0 - q * r1) s1 (s0 - (q : Int) * s1) t1 (t0 - (q : Int) * t1)

/-- `xgcdI(a, b)`: extended Euclid as a loop that carries its accumulators (R102). -/
def xgcdI (a b : Nat) : Nat × Int × Int := xgcdLoop b a b 1 0 0 1

/-- `n' = (-n⁻¹) mod 2^W` (R143), for odd `n`. -/
def negInverse (w n : Nat) : Nat := modRed (-(modInvExists n (2 ^ w) : Int)) (2 ^ w)

/-- `REDC(T)` (R143), for `0 <= T < n * 2^W`. -/
def redc (w n T : Nat) : Nat :=
  let m := T % 2 ^ w * negInverse w n % 2 ^ w
  let t := (T + m * n) / 2 ^ w
  if n ≤ t then t - n else t

/-- Barrett's estimate of `X div n` from `mu = 2^(2k) div n` (R146). -/
def barrettQuotient (k n X : Nat) : Nat := X / 2 ^ (k - 1) * (2 ^ (2 * k) / n) / 2 ^ (k + 1)

/-- What the estimate leaves: `X - q*n` (R146). -/
def barrettRest (k n X : Nat) : Nat := X - barrettQuotient k n X * n

/-- The correction loop `while r >= n: r <- r - n` (R146), for at most `fuel` passes. -/
def barrettCorrect : Nat → Nat → Nat → Nat
  | 0, r, _ => r
  | fuel + 1, r, n => if n ≤ r then barrettCorrect fuel (r - n) n else r

/-- One modular product (R140, R160), counted: the product and the count after it. -/
def countedProduct (n a b count : Nat) : Nat × Nat := (a * b % n, count + 1)

/-- The binary chain of R160 with every modular product counted: `modPowLoop` over `countedProduct`. -/
def modPowCountedLoop : Nat → Nat → Nat → Nat → Nat → Nat → Nat × Nat
  | 0, r, _, _, _, count => (r, count)
  | fuel + 1, r, b, e, n, count =>
    if e = 0 then (r, count)
    else
      let odd := if e % 2 = 1 then countedProduct n r b count else (r, count)
      let square := countedProduct n b b odd.2
      modPowCountedLoop fuel odd.1 square.1 (e / 2) n square.2

/-- `modPow(base, e, n)` by the binary chain (R160), and how many modular products it took (R163). -/
def modPowCounted (base e n : Nat) : Nat × Nat := modPowCountedLoop e (1 % n) (base % n) e n 0

end Sys2Proof.Machine
end

