-- ==== Sys2Proof/Safety.lean ====
section
/-! DEFINITION. What holds of the block's state in every run, in the terms the statements use: the ranges of the registers
(spec/00_scope.md R5), the flags (spec/10_state.md R24, R39, R40), the key (R33); and what a safe run is
(spec/60_exceptions.md R206). -/

namespace Sys2Proof.Machine

namespace State

/-- The parameters are legal and every register holds a value of its width (R5, R26 to R32, R38, R70). -/
abbrev InRange (s : State) : Prop :=
  s.cfg.wf = true ∧
  s.op0 < 2 ^ s.width ∧ s.op1 < 2 ^ s.width ∧ s.op2 < 2 ^ s.width ∧
  s.res0 < 2 ^ s.width ∧ s.res1 < 2 ^ (s.width + 1) ∧ s.res2 < 2 ^ (s.width + 1) ∧
  s.keyN < 2 ^ s.width ∧ s.keyE < 2 ^ s.width ∧ s.keyD < 2 ^ s.width ∧
  s.l0 < 2 ^ s.width ∧ s.l1 < 2 ^ s.width ∧ s.l2 < 2 ^ s.width

/-- While a command runs, DONE is 0 and ERR is NONE (R39); ERR never holds the reserved code 4 (R201). -/
abbrev FlagsLegal (s : State) : Prop :=
  (s.busy = true → s.done = false ∧ s.err = .none) ∧ s.err ≠ .factorNotFound

/-- The key invariant (R33): a valid key is one that RSAKEY derives from some `p`, `q` (R180, R181); without a valid key
the key registers are 0. -/
def KeyLegal (s : State) : Prop :=
  (s.keyValid = true →
    ∃ p q, 2 ≤ p ∧ 2 ≤ q ∧ s.keyN = p * q ∧ gcdE s.keyE (lambda p q) = 1 ∧
      modInv s.keyE (lambda p q) = some s.keyD) ∧
  (s.keyValid = false → s.keyN = 0 ∧ s.keyE = 0 ∧ s.keyD = 0)

/-- The invariant of the block. -/
def Inv (s : State) : Prop := s.InRange ∧ s.FlagsLegal ∧ s.KeyLegal

/-- Two states that agree on everything but KEY_D (R32, R212). -/
def SameButKeyD (s t : State) : Prop := { s with keyD := 0 } = { t with keyD := 0 }

/-- A move the block supports: everything but an unsupported access (R66). -/
def Supports (s : State) : Move → Prop
  | .engine               => True
  | .access (.read a n)    => supported s.cfg a n = true
  | .access (.write a n _) => supported s.cfg a n = true
  | .reset                => True

/-- A run of `k` steps that ends without a fault (R206). -/
def RunsSafely (k : Nat) (s : State) : Prop := ∃ t, Host.Core.run Sys2Proof.core k s = .next t

/-- RSADEC completes in the next step: the one step whose result may depend on KEY_D (R32). -/
def CompletesRsadec (s : State) : Prop :=
  s.busy = true ∧ decode s.lcmd = .ok .rsadec ∧ (s.moves = [] ∨ s.moves.head? = some .engine)

end State

end Sys2Proof.Machine
end

