-- ==== Sys2Proof/Certificates/Slice0/Obligations.lean ====
section
/-! DEFINITION. The statements for the provers, in the order of OBLIGATIONS.json: encoding, the step, each command's
result, the frames and errors, the bus, whole-machine rules. Each docstring says which rule of spec/ it formalises. -/

open Sys2Proof Sys2Proof.Machine

/-! ### Encoding -/

/-- The words of R85, written out, decode to their commands (sanity; both spellings of MODRED). -/
def Obligations.WrittenWordsDecode : Prop :=
  decode 0x00000001#32 = .ok .gcd ∧ decode 0x00000002#32 = .ok .xgcd ∧
  decode 0x00000003#32 = .ok (.modred false) ∧ decode 0x00000103#32 = .ok (.modred true) ∧
  decode 0x00000005#32 = .ok .modmul ∧ decode 0x00000008#32 = .ok .modpow ∧
  decode 0x0000000B#32 = .ok .rsadec ∧ decode 0x0000000C#32 = .ok .keyclr

/-- R85: a word decodes to a command exactly when a row of the opcode map selects it by mask and match; the S bit of
MODRED is bit 8 of the word. -/
def Obligations.OpcodeMapSelectsTheDecodedCommand : Prop :=
  ∀ (w : Word) (i : Instr),
    decode w = .ok i ↔ ∃ r ∈ opcodeTable, w &&& r.mask = r.pattern ∧ r.command (w.getLsbD 8) = i

/-- No word is selected by two rows of the opcode map (R85, R88). -/
def Obligations.OpcodeRowsAreDisjoint : Prop :=
  ∀ w : Word, opcodeTable.Pairwise fun r r' => ¬ (r.selects w = true ∧ r'.selects w = true)

/-- R86: which words are illegal, that an idle block accepts them like any other, and what their completion does. -/
def Obligations.IllegalWordsExactly : Prop :=
  (∀ w : Word, (∃ e, decode w = .error e) ↔
    (w.toNat / 512 ≠ 0 ∨ (w.toNat % 256 = 0 ∨ 0x0D ≤ w.toNat % 256) ∨
      (w.toNat / 256 % 2 = 1 ∧ w.toNat % 256 ≠ 0x03))) ∧
  (∀ (s : State) (w : Word), s.busy = false →
    hostAccess (.write (s.cfg.base + 0x0400) 4 w) s =
      .next { s with lcmd := w, l0 := s.op0, l1 := s.op1, l2 := s.op2, err := .none, done := false, busy := true }) ∧
  (∀ s : State, s.busy = true → (∃ e, decode s.lcmd = .error e) →
    engineTurn s = .next { s with err := .illegalCmd, busy := false, done := true })

/-- Decoding and encoding agree, for every command and every word: a word decodes to a command exactly when it is that
command's word (R82, R85, R86, R88). -/
def Obligations.DecodeEncodeAgree : Prop :=
  ∀ (w : Word) (i : Instr), i.wf = true → (decode w = .ok i ↔ w = encode i)

/-! ### The step -/

/-- One step takes the next move, whole (R72, R73): the engine's turn, a host access, or a reset, on the state in which
the move has been taken; with nothing pending the engine is next. The list of moves and what an empty list means are the model's choice (logs 3, 4), and so is
that a reset keeps the model's two lists (log 7). -/
def Obligations.StepTakesTheNextMove : Prop :=
  ∀ s : State,
    (s.moves = [] → step s = engineTurn s) ∧
    (∀ ms, s.moves = .engine :: ms → step s = engineTurn { s with moves := ms }) ∧
    (∀ a ms, s.moves = .access a :: ms → step s = hostAccess a { s with moves := ms }) ∧
    (∀ ms, s.moves = .reset :: ms →
      step s = .next { State.resetWith s.cfg with moves := ms, responses := s.responses })

/-- A step runs the decoded command: when a command is in flight and it is the engine's turn, the step is `exec` of the
command that LCMD decodes to, on the state in which the turn has been taken (R40, R81). -/
def Obligations.StepRunsTheDecodedCommand : Prop :=
  ∀ (s : State) (i : Instr), s.busy = true → decode s.lcmd = .ok i →
    (s.moves = [] → step s = exec i s) ∧
    (∀ ms, s.moves = .engine :: ms → step s = exec i { s with moves := ms })

/-- From any state, a step after the acceptance of a command's word runs exactly that command on the operands that the
acceptance latched, and the opcode table's word decodes to it (R39, R40; log 8, the model's choice). -/
def Obligations.AcceptedWordIsRunNext : Prop :=
  ∀ (s : State) (i : Instr),
    decodeTableWord 32 (encode i).toNat = some i ∧
    step (s.withFetchWord 32 (encode i).toNat) =
      exec i { s with lcmd := encode i, l0 := s.op0, l1 := s.op1, l2 := s.op2, err := .none, done := false, busy := true }

/-! ### GCD and XGCD -/

/-- R100: Euclid's base and recursive case. -/
def Obligations.GcdFollowsEuclid : Prop :=
  (∀ a, gcdE a 0 = a) ∧ (∀ a b, b ≠ 0 → gcdE a b = gcdE b (a % b))

/-- R103: GCD's word, its result, everything it leaves unchanged, and that the result is bounded by the operands. -/
def Obligations.GcdResult : Prop :=
  encode .gcd = 0x00000001#32 ∧
  ∀ s : State,
    exec .gcd s = .next { s with res0 := Nat.gcd s.l0 s.l1, err := .none, busy := false, done := true } ∧
    Nat.gcd s.l0 s.l1 ≤ max s.l0 s.l1

/-- R101: the source's recurrence, which fixes the Bézout pair. -/
def Obligations.XgcdFollowsTheRecurrence : Prop :=
  (∀ a, xgcdR a 0 = (a, 1, 0)) ∧
  (∀ a b g x y, b ≠ 0 → xgcdR b (a % b) = (g, x, y) →
    xgcdR a b = (g, y, x - ((a / b : Nat) : Int) * y))

/-- R104: XGCD's word, its three results, everything it leaves unchanged; the pair is Bézout's, and RES1 and RES2 hold
it without loss for operands in range. -/
def Obligations.XgcdResult : Prop :=
  encode .xgcd = 0x00000002#32 ∧
  ∀ s : State, ∃ x y : Int,
    xgcdR s.l0 s.l1 = (Nat.gcd s.l0 s.l1, x, y) ∧
    (s.l0 : Int) * x + (s.l1 : Int) * y = (Nat.gcd s.l0 s.l1 : Int) ∧
    exec .xgcd s =
      .next { s with
        res0 := Nat.gcd s.l0 s.l1, res1 := enc (s.cfg.width + 1) x, res2 := enc (s.cfg.width + 1) y,
        err := .none, busy := false, done := true } ∧
    (s.InRange →
      sext (s.cfg.width + 1) (enc (s.cfg.width + 1) x) = x ∧ sext (s.cfg.width + 1) (enc (s.cfg.width + 1) y) = y)

/-- The bound on the Bézout coefficients, and that they fit W+1 bits for every legal W (R105, which the spec marks as
general knowledge: an inference). -/
def Obligations.BezoutCoefficientsFit : Prop :=
  ∀ (a b g : Nat) (x y : Int), xgcdR a b = (g, x, y) →
    g = Nat.gcd a b ∧
    (0 < g → |x| ≤ max 1 ((b / g : Nat) : Int) ∧ |y| ≤ max 1 ((a / g : Nat) : Int)) ∧
    (g = 0 → x = 1 ∧ y = 0) ∧
    (∀ w : Nat, 8 ≤ w → a < 2 ^ w → b < 2 ^ w →
      -(2 : Int) ^ w ≤ x ∧ x ≤ 2 ^ w - 1 ∧ -(2 : Int) ^ w ≤ y ∧ y ≤ 2 ^ w - 1)

/-- The loop that carries its accumulators returns exactly the recurrence's triple (R102, which the spec marks as general
knowledge: an inference). -/
def Obligations.XgcdLoopIsTheRecurrence : Prop := ∀ a b : Nat, xgcdI a b = xgcdR a b

/-! ### MODRED and MODINV -/

/-- `sext_N` and `enc_N` of R8: reading N bits as two's complement, and writing an integer that fits, are inverse. -/
def Obligations.TwosComplementRoundTrip : Prop :=
  ∀ n : Nat, 0 < n →
    (∀ v : Nat, v < 2 ^ n →
      sext n v = (if v < 2 ^ (n - 1) then (v : Int) else (v : Int) - 2 ^ n) ∧ enc n (sext n v) = v) ∧
    (∀ i : Int, -(2 : Int) ^ (n - 1) ≤ i → i < 2 ^ (n - 1) → enc n i < 2 ^ n ∧ sext n (enc n i) = i)

/-- R120: `modRed` is the truncating remainder, corrected by adding `n` once when it is negative; it lies in `[0, n)` and
equals the Euclidean remainder. -/
def Obligations.ModRedIsTheEuclideanRemainder : Prop :=
  ∀ (a : Int) (n : Nat), 0 < n →
    (modRed a n : Int) = (if a - n * a.tdiv n < 0 then a - n * a.tdiv n + n else a - n * a.tdiv n) ∧
    (modRed a n : Int) = a % n ∧ modRed a n < n

/-- R121: MODRED's two words, DOMAIN for a zero modulus, and its result for both readings of L[0]. -/
def Obligations.ModredResult : Prop :=
  encode (.modred false) = 0x00000003#32 ∧ encode (.modred true) = 0x00000103#32 ∧
  ∀ (s : State) (signed : Bool),
    (s.l2 = 0 → exec (.modred signed) s = .next { s with err := .domain, busy := false, done := true }) ∧
    (s.l2 ≠ 0 → exec (.modred signed) s =
      .next { s with
        res0 := ((if signed then sext s.cfg.width s.l0 else (s.l0 : Int)) % (s.l2 : Int)).toNat,
        err := .none, busy := false, done := true })

/-- R123: MODINV's word, its two errors in their order, and its result: the unique inverse in `[0, n)`. -/
def Obligations.ModinvResult : Prop :=
  encode .modinv = 0x00000004#32 ∧
  ∀ s : State,
    (s.l2 = 0 → exec .modinv s = .next { s with err := .domain, busy := false, done := true }) ∧
    (s.l2 ≠ 0 → Nat.gcd s.l0 s.l2 ≠ 1 →
      exec .modinv s = .next { s with err := .noInverse, busy := false, done := true }) ∧
    (s.l2 ≠ 0 → Nat.gcd s.l0 s.l2 = 1 → ∃ r, r < s.l2 ∧ s.l0 * r % s.l2 = 1 % s.l2 ∧
      (∀ r', r' < s.l2 → s.l0 * r' % s.l2 = 1 % s.l2 → r' = r) ∧
      exec .modinv s = .next { s with res0 := r, err := .none, busy := false, done := true })

/-- For `n > 1` and coprime operands the coefficient lies strictly between `-n` and `n` (R124, which the spec marks as
general knowledge: an inference). -/
def Obligations.InverseCoefficientIsSmall : Prop :=
  ∀ (a n g : Nat) (x y : Int), 1 < n → Nat.gcd a n = 1 → xgcdR a n = (g, x, y) → -(n : Int) < x ∧ x < n

/-! ### MODMUL, MONTMUL, BARRETT -/

/-- R140: MODMUL's word, DOMAIN for a zero modulus, and the exact product reduced; the result is `modRed` of the product
(R141). -/
def Obligations.ModmulResult : Prop :=
  encode .modmul = 0x00000005#32 ∧
  ∀ s : State,
    (s.l2 = 0 → exec .modmul s = .next { s with err := .domain, busy := false, done := true }) ∧
    (s.l2 ≠ 0 →
      exec .modmul s = .next { s with res0 := s.l0 * s.l1 % s.l2, err := .none, busy := false, done := true } ∧
      s.l0 * s.l1 % s.l2 = modRed ((s.l0 : Int) * (s.l1 : Int)) s.l2)

/-- R142: MONTMUL's word, when it gives DOMAIN, and its result: the unique `r` below `n` with `r * 2^W` congruent to the
product of the operands. -/
def Obligations.MontmulResult : Prop :=
  encode .montmul = 0x00000006#32 ∧
  ∀ s : State,
    ((s.l2 = 0 ∨ s.l2 % 2 = 0 ∨ s.l2 ≤ s.l0 ∨ s.l2 ≤ s.l1) →
      exec .montmul s = .next { s with err := .domain, busy := false, done := true }) ∧
    (s.l2 % 2 = 1 → s.l0 < s.l2 → s.l1 < s.l2 → ∃ r, r < s.l2 ∧
      r * 2 ^ s.cfg.width % s.l2 = s.l0 * s.l1 % s.l2 ∧
      (∀ r', r' < s.l2 → r' * 2 ^ s.cfg.width % s.l2 = s.l0 * s.l1 % s.l2 → r' = r) ∧
      exec .montmul s = .next { s with res0 := r, err := .none, busy := false, done := true })

/-- Montgomery's REDC (R143, which the spec marks as general knowledge and non-normative) divides exactly, needs at most one
subtraction, and gives MONTMUL's result. -/
def Obligations.RedcComputesMontmul : Prop :=
  (∀ w n T : Nat, n % 2 = 1 → T < n * 2 ^ w →
    (T + T % 2 ^ w * negInverse w n % 2 ^ w * n) % 2 ^ w = 0 ∧
    (T + T % 2 ^ w * negInverse w n % 2 ^ w * n) / 2 ^ w < 2 * n ∧
    redc w n T < n ∧ redc w n T * 2 ^ w % n = T % n) ∧
  (∀ s : State, s.InRange → s.l2 % 2 = 1 → s.l0 < s.l2 → s.l1 < s.l2 →
    exec .montmul s =
      .next { s with res0 := redc s.cfg.width s.l2 (s.l0 * s.l1), err := .none, busy := false, done := true })

/-- R144: two products into the Montgomery domain, their Montgomery product, and the product with 1 give the modular
product, where every MONTMUL completes without error. -/
def Obligations.MontgomeryDomainProduct : Prop :=
  ∀ s₁ s₂ s₃ s₄ t₁ t₂ t₃ t₄ : State,
    exec .montmul s₁ = .next t₁ → exec .montmul s₂ = .next t₂ →
    exec .montmul s₃ = .next t₃ → exec .montmul s₄ = .next t₄ →
    t₁.err = .none → t₂.err = .none → t₃.err = .none → t₄.err = .none →
    s₂.cfg = s₁.cfg → s₃.cfg = s₁.cfg → s₄.cfg = s₁.cfg →
    s₂.l2 = s₁.l2 → s₃.l2 = s₁.l2 → s₄.l2 = s₁.l2 →
    s₁.l1 = 2 ^ (2 * s₁.cfg.width) % s₁.l2 → s₂.l1 = 2 ^ (2 * s₁.cfg.width) % s₁.l2 →
    s₃.l0 = t₁.res0 → s₃.l1 = t₂.res0 → s₄.l0 = t₃.res0 → s₄.l1 = 1 →
    t₄.res0 = s₁.l0 * s₂.l0 % s₁.l2

/-- R145: BARRETT's word, DOMAIN for a zero modulus, and the double-width value reduced exactly; on a product split into
its high and low W bits the result is MODMUL's. -/
def Obligations.BarrettResult : Prop :=
  encode .barrett = 0x00000007#32 ∧
  ∀ s : State,
    (s.l2 = 0 → exec .barrett s = .next { s with err := .domain, busy := false, done := true }) ∧
    (s.l2 ≠ 0 → exec .barrett s =
      .next { s with res0 := (s.l0 * 2 ^ s.cfg.width + s.l1) % s.l2, err := .none, busy := false, done := true }) ∧
    (∀ a b : Nat, s.l2 ≠ 0 → s.l0 = a * b / 2 ^ s.cfg.width → s.l1 = a * b % 2 ^ s.cfg.width →
      exec .barrett s = .next { s with res0 := a * b % s.l2, err := .none, busy := false, done := true })

/-- Barrett's estimate (R146, which the spec marks as general knowledge and non-normative) is never too large, subtracting
while possible gives BARRETT's result, and for a modulus of full width two passes suffice. -/
def Obligations.BarrettEstimateIsExact : Prop :=
  (∀ k n X : Nat, 1 ≤ k → 0 < n → X < 2 ^ (2 * k) →
    barrettQuotient k n X * n ≤ X ∧ barrettCorrect X (barrettRest k n X) n = X % n ∧
    (2 ^ (k - 1) ≤ n → n < 2 ^ k → barrettCorrect 2 (barrettRest k n X) n = X % n)) ∧
  (∀ s : State, s.InRange → s.l2 ≠ 0 →
    exec .barrett s =
      .next { s with
        res0 := barrettCorrect s.wide (barrettRest s.cfg.width s.l2 s.wide) s.l2,
        err := .none, busy := false, done := true })

/-! ### MODPOW -/

/-- R161: MODPOW's word, DOMAIN for a zero modulus, and the exact power reduced, for every exponent (`0^0` is 1 here, as
the rule says). -/
def Obligations.ModpowResult : Prop :=
  encode .modpow = 0x00000008#32 ∧
  ∀ s : State,
    (s.l2 = 0 → exec .modpow s = .next { s with err := .domain, busy := false, done := true }) ∧
    (s.l2 ≠ 0 → exec .modpow s =
      .next { s with res0 := s.l0 ^ s.l1 % s.l2, err := .none, busy := false, done := true })

/-- The binary chain of R160 with its products counted gives `modPow` and so MODPOW's result, and takes one product for
each bit of the exponent and one more for each bit that is 1: at most `2 * bitlength(e)`, with `bitlength(0) = 0` (R163). -/
def Obligations.BinaryChainIsShort : Prop :=
  (∀ base e n : Nat,
    (modPowCounted base e n).1 = modPow base e n ∧
    (modPowCounted base e n).2 = Nat.size e + (Nat.bits e).count true ∧
    (modPowCounted base e n).2 ≤ 2 * Nat.size e) ∧
  (∀ s : State, s.l2 ≠ 0 →
    exec .modpow s =
      .next { s with res0 := (modPowCounted s.l0 s.l1 s.l2).1, err := .none, busy := false, done := true })

/-! ### RSA -/

/-- R181: RSAKEY's word, its errors in their order, and the key it writes: `n = p*q`, `e`, and the inverse of `e` modulo
`(p-1)*(q-1)`. -/
def Obligations.RsakeyResult : Prop :=
  encode .rsakey = 0x00000009#32 ∧
  ∀ s : State,
    ((s.l0 < 2 ∨ s.l1 < 2) → exec .rsakey s = .next { s with err := .domain, busy := false, done := true }) ∧
    (2 ≤ s.l0 → 2 ≤ s.l1 → 2 ^ s.cfg.width ≤ s.l0 * s.l1 →
      exec .rsakey s = .next { s with err := .domain, busy := false, done := true }) ∧
    (2 ≤ s.l0 → 2 ≤ s.l1 → s.l0 * s.l1 < 2 ^ s.cfg.width → Nat.gcd s.l2 ((s.l0 - 1) * (s.l1 - 1)) ≠ 1 →
      exec .rsakey s = .next { s with err := .invalidExponent, busy := false, done := true }) ∧
    (2 ≤ s.l0 → 2 ≤ s.l1 → s.l0 * s.l1 < 2 ^ s.cfg.width → Nat.gcd s.l2 ((s.l0 - 1) * (s.l1 - 1)) = 1 →
      ∃ d, modInv s.l2 ((s.l0 - 1) * (s.l1 - 1)) = some d ∧ d < (s.l0 - 1) * (s.l1 - 1) ∧
        s.l2 * d % ((s.l0 - 1) * (s.l1 - 1)) = 1 % ((s.l0 - 1) * (s.l1 - 1)) ∧
        exec .rsakey s =
          .next { s with
            keyN := s.l0 * s.l1, keyE := s.l2, keyD := d, keyValid := true, err := .none, busy := false, done := true })

/-- R184: RSAENC's word, its errors in their order, and its result with KEY_E. -/
def Obligations.RsaencResult : Prop :=
  encode .rsaenc = 0x0000000A#32 ∧
  ∀ s : State,
    (s.keyValid = false → exec .rsaenc s = .next { s with err := .keyNotValid, busy := false, done := true }) ∧
    (s.keyValid = true → s.keyN ≤ s.l0 →
      exec .rsaenc s = .next { s with err := .domain, busy := false, done := true }) ∧
    (s.keyValid = true → s.l0 < s.keyN → exec .rsaenc s =
      .next { s with res0 := s.l0 ^ s.keyE % s.keyN, err := .none, busy := false, done := true })

/-- R185: RSADEC's word, its errors in their order, and its result with KEY_D. -/
def Obligations.RsadecResult : Prop :=
  encode .rsadec = 0x0000000B#32 ∧
  ∀ s : State,
    (s.keyValid = false → exec .rsadec s = .next { s with err := .keyNotValid, busy := false, done := true }) ∧
    (s.keyValid = true → s.keyN ≤ s.l0 →
      exec .rsadec s = .next { s with err := .domain, busy := false, done := true }) ∧
    (s.keyValid = true → s.l0 < s.keyN → exec .rsadec s =
      .next { s with res0 := s.l0 ^ s.keyD % s.keyN, err := .none, busy := false, done := true })

/-- R187: KEYCLR's word and effect; after it RSAENC and RSADEC give KEY_NOT_VALID until a key is written. -/
def Obligations.KeyclrResult : Prop :=
  encode .keyclr = 0x0000000C#32 ∧
  (∀ s : State,
    exec .keyclr s =
      .next { s with
        keyN := 0, keyE := 0, keyD := 0, keyValid := false, err := .none, busy := false, done := true }) ∧
  (∀ s t u : State, exec .keyclr s = .next t → u.keyValid = t.keyValid →
    exec .rsaenc u = .next { u with err := .keyNotValid, busy := false, done := true } ∧
    exec .rsadec u = .next { u with err := .keyNotValid, busy := false, done := true })

/-- The RSA round trip (R186, which is the spec's own inference, by general knowledge): with the key that RSAKEY builds from
distinct primes, RSADEC of RSAENC of every message below the modulus is the message, a message that shares a factor with
the modulus included. -/
def Obligations.RsaRoundTrip : Prop :=
  ∀ s t u v x y : State,
    Nat.Prime s.l0 → Nat.Prime s.l1 → s.l0 ≠ s.l1 →
    exec .rsakey s = .next t → t.err = .none →
    u.keyValid = t.keyValid → u.keyN = t.keyN → u.keyE = t.keyE → u.l0 < u.keyN → exec .rsaenc u = .next v →
    x.keyValid = t.keyValid → x.keyN = t.keyN → x.keyD = t.keyD → x.l0 = v.res0 → exec .rsadec x = .next y →
    v.err = .none ∧ y.err = .none ∧ y.res0 = u.l0

/-! ### What a completion changes, and errors -/

/-- R29, with R40: every command completes; which result and key registers each may write, and that nothing else
changes: not the parameters, CTRL.IE, OVR, the operands, the latches, what is pending or what was read. -/
def Obligations.CompletionWritesOnlyItsResults : Prop :=
  ∀ (i : Instr) (s : State), ∃ t, exec i s = .next t ∧ t.busy = false ∧ t.done = true ∧
    t = { s with
      res0 := t.res0, res1 := t.res1, res2 := t.res2, keyN := t.keyN, keyE := t.keyE, keyD := t.keyD,
      keyValid := t.keyValid, err := t.err, busy := t.busy, done := t.done } ∧
    (i ≠ .xgcd → t.res1 = s.res1 ∧ t.res2 = s.res2) ∧
    ((i = .rsakey ∨ i = .keyclr) → t.res0 = s.res0) ∧
    (i ≠ .rsakey → i ≠ .keyclr →
      t.keyN = s.keyN ∧ t.keyE = s.keyE ∧ t.keyD = s.keyD ∧ t.keyValid = s.keyValid) ∧
    (i = .keyclr → t.keyN = 0 ∧ t.keyE = 0 ∧ t.keyD = 0 ∧ t.keyValid = false) ∧
    (t.err ≠ .none → t = { s with err := t.err, busy := false, done := true })

/-- R204: a completion that ends with an error, an illegal word's included, changes ERR, BUSY and DONE and nothing
else. -/
def Obligations.ErrorChangesOnlyStatus : Prop :=
  ∀ s t : State, s.busy = true → engineTurn s = .next t → t.err ≠ .none →
    t = { s with err := t.err, busy := false, done := true }

/-- A command ends with no other code than those that R202 lists for it. -/
def Obligations.ErrorCodesOfEachCommand : Prop :=
  ∀ (i : Instr) (s t : State), exec i s = .next t →
    match i with
    | .gcd      => t.err = .none
    | .xgcd     => t.err = .none
    | .keyclr   => t.err = .none
    | .modred _ => t.err = .none ∨ t.err = .domain
    | .modmul   => t.err = .none ∨ t.err = .domain
    | .barrett  => t.err = .none ∨ t.err = .domain
    | .modpow   => t.err = .none ∨ t.err = .domain
    | .montmul  => t.err = .none ∨ t.err = .domain
    | .modinv   => t.err = .none ∨ t.err = .domain ∨ t.err = .noInverse
    | .rsakey   => t.err = .none ∨ t.err = .domain ∨ t.err = .invalidExponent
    | .rsaenc   => t.err = .none ∨ t.err = .keyNotValid ∨ t.err = .domain
    | .rsadec   => t.err = .none ∨ t.err = .keyNotValid ∨ t.err = .domain

/-- R203: when several conditions hold, the code reported is the first of ILLEGAL_CMD, KEY_NOT_VALID, DOMAIN, and then
NO_INVERSE or INVALID_EXPONENT. -/
def Obligations.FirstErrorWins : Prop :=
  ∀ s t : State,
    (s.busy = true → (∃ e, decode s.lcmd = .error e) → engineTurn s = .next t → t.err = .illegalCmd) ∧
    (s.keyValid = false → (exec .rsaenc s = .next t ∨ exec .rsadec s = .next t) → t.err = .keyNotValid) ∧
    (s.keyValid = true → s.keyN ≤ s.l0 → (exec .rsaenc s = .next t ∨ exec .rsadec s = .next t) →
      t.err = .domain) ∧
    (s.l2 = 0 → exec .modinv s = .next t → t.err = .domain) ∧
    ((s.l0 < 2 ∨ s.l1 < 2 ∨ 2 ^ s.cfg.width ≤ s.l0 * s.l1) → exec .rsakey s = .next t → t.err = .domain)

/-! ### The bus -/

/-- R39: a CMD write is dropped and flagged while a command runs, and otherwise latches the word and the operands and
starts the command. -/
def Obligations.CommandAcceptance : Prop :=
  ∀ (s : State) (c : Word),
    (s.busy = true →
      hostAccess (.write (s.cfg.base + 0x0400) 4 c) s = .next { s with ovr := true }) ∧
    (s.busy = false →
      hostAccess (.write (s.cfg.base + 0x0400) 4 c) s =
        .next { s with
          lcmd := c, l0 := s.op0, l1 := s.op1, l2 := s.op2, err := .none, done := false, busy := true })

/-- R25: a STATUS write clears DONE and OVR where its bits 1 and 8 are 1, and changes nothing else. -/
def Obligations.StatusWrite : Prop :=
  ∀ (s : State) (v : Word),
    hostAccess (.write (s.cfg.base + 0x0600) 4 v) s =
      .next { s with
        done := if v.toNat / 2 % 2 = 1 then false else s.done, ovr := if v.toNat / 256 % 2 = 1 then false else s.ovr }

/-- R209, with the last sentence of R210: `irq` is IE and DONE; a completion raises it when IE is set, with an error or without; setting IE while
DONE is set raises it at once, clearing IE lowers it; clearing DONE, a new command and reset lower it. -/
def Obligations.InterruptFollowsDone : Prop :=
  (∀ s : State, s.irq = (s.ie && s.done)) ∧
  (∀ s t : State, s.busy = true → engineTurn s = .next t → t.irq = s.ie) ∧
  (∀ (s : State) (v : Word), ∃ t, hostAccess (.write (s.cfg.base + 0x0200) 4 v) s = .next t ∧
    t = { s with ie := t.ie } ∧ t.ie = decide (v.toNat % 2 = 1) ∧ t.irq = (decide (v.toNat % 2 = 1) && s.done)) ∧
  (∀ (s t : State) (v : Word), v.toNat / 2 % 2 = 1 →
    hostAccess (.write (s.cfg.base + 0x0600) 4 v) s = .next t → t.irq = false) ∧
  (∀ (s t : State) (c : Word), s.busy = false →
    hostAccess (.write (s.cfg.base + 0x0400) 4 c) s = .next t → t.irq = false) ∧
  (∀ s : State, s.resetBlock.irq = false)

/-- R64: what a read of each word of the window returns, the layout of ID, CTRL and STATUS (R21, R22, R24) and the codes
of ERR (R201) included; and that a supported read changes no state of the block. -/
def Obligations.BusReadValues : Prop :=
  (∀ (s : State) (j : Nat), j < 128 →
    (busRead (4 * j) s).toNat = (if j = 0 then 0x4D4D * 2 ^ 16 + 1 * 2 ^ 12 + s.cfg.width % 2 ^ 12 else 0) ∧
    (busRead (0x0200 + 4 * j) s).toNat = (if j = 0 then s.ie.toNat else 0) ∧
    (busRead (0x0400 + 4 * j) s).toNat = 0 ∧
    (busRead (0x0600 + 4 * j) s).toNat =
      (if j = 0 then
        s.busy.toNat + 2 * s.done.toNat + 16 * s.err.code.toNat + 256 * s.ovr.toNat + 512 * s.keyValid.toNat
      else 0) ∧
    (busRead (0x0800 + 4 * j) s).toNat = s.op0 / 2 ^ (32 * j) % 2 ^ 32 ∧
    (busRead (0x0A00 + 4 * j) s).toNat = s.op1 / 2 ^ (32 * j) % 2 ^ 32 ∧
    (busRead (0x0C00 + 4 * j) s).toNat = s.op2 / 2 ^ (32 * j) % 2 ^ 32 ∧
    (busRead (0x0E00 + 4 * j) s).toNat = s.res0 / 2 ^ (32 * j) % 2 ^ 32 ∧
    ((busRead (0x1000 + 4 * j) s).toNat : Int) = sext (s.cfg.width + 1) s.res1 / 2 ^ (32 * j) % 2 ^ 32 ∧
    ((busRead (0x1200 + 4 * j) s).toNat : Int) = sext (s.cfg.width + 1) s.res2 / 2 ^ (32 * j) % 2 ^ 32 ∧
    (busRead (0x1400 + 4 * j) s).toNat = s.keyN / 2 ^ (32 * j) % 2 ^ 32 ∧
    (busRead (0x1600 + 4 * j) s).toNat = s.keyE / 2 ^ (32 * j) % 2 ^ 32) ∧
  (∀ (s : State) (off : Nat), 0x1800 ≤ off → busRead off s = 0) ∧
  (∀ (s : State) (off : Nat), off < 0x2000 → off % 4 = 0 →
    ∃ t, hostAccess (.read (s.cfg.base + off) 4) s = .next t ∧ t = { s with responses := t.responses }) ∧
  (ErrCode.none.code = 0 ∧ ErrCode.noInverse.code = 1 ∧ ErrCode.invalidExponent.code = 2 ∧ ErrCode.domain.code = 3 ∧
    ErrCode.factorNotFound.code = 4 ∧ ErrCode.illegalCmd.code = 5 ∧ ErrCode.keyNotValid.code = 6)

/-- What a supported read returns reaches the host: it is the newest entry of the answers that the host has read (R64,
R69; the list of answers is the model's own, log 5). -/
def Obligations.ReadsAnswerTheHost : Prop :=
  ∀ (s : State) (off : Nat), off < 0x2000 → off % 4 = 0 →
    hostAccess (.read (s.cfg.base + off) 4) s = .next { s with responses := s.responses ++ [busRead off s] }

/-- R65: what a write to each word of the window does: CTRL, CMD and STATUS by their word 0, an operand register by the
slice, and everything else ignored. -/
def Obligations.BusWriteEffects : Prop :=
  ∀ (s : State) (v : Word) (j : Nat), j < 128 →
    (busWrite (0x0200 + 4 * j) v s = if j = 0 then { s with ie := decide (v.toNat % 2 = 1) } else s) ∧
    (busWrite (0x0400 + 4 * j) v s = if j = 0 then s.writeCmd v else s) ∧
    (busWrite (0x0600 + 4 * j) v s = if j = 0 then s.writeStatus v else s) ∧
    (∀ new : Nat → Nat,
      (∀ old, new old = if 32 * j < s.cfg.width
        then (old - old / 2 ^ (32 * j) % 2 ^ 32 * 2 ^ (32 * j) + v.toNat * 2 ^ (32 * j)) % 2 ^ s.cfg.width
        else old) →
      busWrite (0x0800 + 4 * j) v s = { s with op0 := new s.op0 } ∧
      busWrite (0x0A00 + 4 * j) v s = { s with op1 := new s.op1 } ∧
      busWrite (0x0C00 + 4 * j) v s = { s with op2 := new s.op2 }) ∧
    busWrite (4 * j) v s = s ∧
    (∀ off, 0x0E00 ≤ off → busWrite off v s = s) ∧
    (∀ off, off < 0x2000 → off % 4 = 0 →
      hostAccess (.write (s.cfg.base + off) 4 v) s = .next (busWrite off v s))

/-- A write to word `j` of an operand register changes exactly the 32-bit slice it addresses, and bits at and above W
stay 0 (R26, R62, R65). -/
def Obligations.OperandWriteIsItsSlice : Prop :=
  ∀ (w old j : Nat) (v : Word), old < 2 ^ w →
    withWord w old j v < 2 ^ w ∧
    ∀ k, k < w → (withWord w old j v).testBit k =
      if 32 * j ≤ k ∧ k < 32 * j + 32 then v.getLsbD (k - 32 * j) else old.testBit k

/-- A read right after a write to the same word of OP0, OP1, OP2 or CTRL returns the written effect, and writing an
operand word twice is writing it once (R69, R247). -/
def Obligations.ReadAfterWrite : Prop :=
  ∀ (s : State) (v : Word) (j k : Nat), s.InRange → j < 128 → 4 ≤ k → k ≤ 6 →
    (busRead (k * 0x200 + 4 * j) (busWrite (k * 0x200 + 4 * j) v s)).toNat = v.toNat % 2 ^ (s.cfg.width - 32 * j) ∧
    busWrite (k * 0x200 + 4 * j) v (busWrite (k * 0x200 + 4 * j) v s) = busWrite (k * 0x200 + 4 * j) v s ∧
    (busRead 0x0200 (busWrite 0x0200 v s)).toNat = v.toNat % 2

/-- `WR OPk, v` for a wide value (R90): after one write per word in increasing order the register holds the value, and
nothing else has changed but that the writes are no longer pending (the list of moves is the model's own, log 3; that every word is
written, for a value below 2^32 too, is the model's choice, log 21). -/
def Obligations.WideOperandWrite : Prop :=
  ∀ (s : State) (v : Nat) (rest : List Move), s.InRange → v < 2 ^ s.cfg.width →
    (s.moves = wrWide s.cfg .op0 v ++ rest →
      Host.Core.run Sys2Proof.core (wordCount s.cfg) s = .next { s with op0 := v, moves := rest }) ∧
    (s.moves = wrWide s.cfg .op1 v ++ rest →
      Host.Core.run Sys2Proof.core (wordCount s.cfg) s = .next { s with op1 := v, moves := rest }) ∧
    (s.moves = wrWide s.cfg .op2 v ++ rest →
      Host.Core.run Sys2Proof.core (wordCount s.cfg) s = .next { s with op2 := v, moves := rest })

/-- `CMD MNEMONIC` then `WAIT` (R90), on an idle block: the command is accepted, `polls` reads of STATUS find BUSY = 1, the
command completes on the operands latched at acceptance, and the last read finds BUSY = 0 and the command's ERR. The
polls change nothing but the host's list of answers (log 5); WAIT as a trace of its polls is the model's (log 14). -/
def Obligations.CommandThenWait : Prop :=
  ∀ (s t : State) (i : Instr) (polls : Nat) (rest : List Move), s.busy = false →
    s.moves = cmdLine s.cfg i :: (waitTrace s.cfg polls ++ rest) →
    exec i { s with
      lcmd := encode i, l0 := s.op0, l1 := s.op1, l2 := s.op2, err := .none, done := false, busy := true,
      moves := rest,
      responses := s.responses ++
        List.replicate polls (statusWord { s with err := .none, done := false, busy := true }) } = .next t →
    Host.Core.run Sys2Proof.core (polls + 3) s = .next { t with responses := t.responses ++ [statusWord t] } ∧
      (statusWord { s with err := .none, done := false, busy := true }).getLsbD 0 = true ∧
      (statusWord t).getLsbD 0 = false ∧ (statusWord t).extractLsb' 4 4 = t.err.code

/-- R66 and R206: an access that is not 32 bits wide, not at a multiple of 4 or not in the window faults, and changes
nothing; every other access is answered. -/
def Obligations.UnsupportedAccessFaults : Prop :=
  ∀ (s : State) (addr bytes : Nat) (v : Word),
    (¬ (bytes = 4 ∧ s.cfg.base ≤ addr ∧ addr < s.cfg.base + 0x2000 ∧ (addr - s.cfg.base) % 4 = 0) →
      hostAccess (.read addr bytes) s = .fault (.busError addr bytes) ∧
      hostAccess (.write addr bytes v) s = .fault (.busError addr bytes)) ∧
    ((bytes = 4 ∧ s.cfg.base ≤ addr ∧ addr < s.cfg.base + 0x2000 ∧ (addr - s.cfg.base) % 4 = 0) →
      (∃ t, hostAccess (.read addr bytes) s = .next t) ∧ (∃ t, hostAccess (.write addr bytes v) s = .next t))

/-- Nothing but an unsupported access stops the block: every other step answers a next state, and no step is refused
(R66, R86, R200; the list of moves is the model's own, log 3). -/
def Obligations.OnlyUnsupportedAccessesStop : Prop :=
  ∀ s : State,
    (∃ t, step s = .next t) ∨
    (∃ addr bytes ms, step s = .fault (.busError addr bytes) ∧ supported s.cfg addr bytes = false ∧
      (s.moves = .access (.read addr bytes) :: ms ∨ ∃ v, s.moves = .access (.write addr bytes v) :: ms))

/-! ### Whole-machine rules -/

/-- A host write to an operand register does not reach the command in flight: it makes no difference whether it comes
before or after the completion (R10, R244, and R76). -/
def Obligations.OperandWriteCommutesWithCompletion : Prop :=
  ∀ (s t : State) (k j : Nat) (v : Word), 4 ≤ k → k ≤ 6 → j < 128 → engineTurn s = .next t →
    engineTurn (busWrite (k * 0x200 + 4 * j) v s) = .next (busWrite (k * 0x200 + 4 * j) v t)

/-- OP0 to OP2 are written only by the host, and RES0 to RES2 only by the engine, in a step after which BUSY is 0 (R20,
R73; the moves are the model's own, logs 3 and 4); reset apart. -/
def Obligations.OperandsAndResultsHaveOneWriter : Prop :=
  ∀ s t : State, step s = .next t → s.moves.head? ≠ some .reset →
    (¬ (t.op0 = s.op0 ∧ t.op1 = s.op1 ∧ t.op2 = s.op2) →
      ∃ addr v, s.moves.head? = some (.access (.write addr 4 v)) ∧
        4 ≤ (addr - s.cfg.base) / 0x200 ∧ (addr - s.cfg.base) / 0x200 ≤ 6) ∧
    (¬ (t.res0 = s.res0 ∧ t.res1 = s.res1 ∧ t.res2 = s.res2) →
      (s.moves = [] ∨ s.moves.head? = some .engine) ∧ s.busy = true ∧ t.busy = false ∧ t.err = .none)

/-- The key registers and KEY_VALID change only in a reset or in the successful completion of RSAKEY or KEYCLR (R34; the
engine's turn is said in the model's terms, logs 3 and 4). -/
def Obligations.KeyChangesOnlyByKeyCommands : Prop :=
  ∀ s t : State, step s = .next t →
    ¬ (t.keyN = s.keyN ∧ t.keyE = s.keyE ∧ t.keyD = s.keyD ∧ t.keyValid = s.keyValid) →
    s.moves.head? = some .reset ∨
    ((s.moves = [] ∨ s.moves.head? = some .engine) ∧ s.busy = true ∧
      (decode s.lcmd = .ok .rsakey ∨ decode s.lcmd = .ok .keyclr) ∧ t.err = .none)

/-- KEY_D stays secret (R32, R212): two states that agree on everything but KEY_D still do after a step, or fault alike,
unless the step completes RSADEC. What a read answers and `irq` are part of what agrees (the turn and the answers are
said in the model's terms, logs 3, 4 and 5). -/
def Obligations.KeyDIsNotRevealed : Prop :=
  ∀ s t : State, s.SameButKeyD t → ¬ s.CompletesRsadec →
    (∀ s', step s = .next s' → ∃ t', step t = .next t' ∧ s'.SameButKeyD t') ∧
    (∀ f, step s = .fault f → step t = .fault f)

/-- What sets and what clears BUSY, DONE, OVR and KEY_VALID, in one step of any state (R24, R187; the moves are the model's own,
logs 3 and 4). -/
def Obligations.FlagsChangeOnlyAsListed : Prop :=
  ∀ s t : State, step s = .next t →
    (s.busy = false → t.busy = true →
      ∃ c, s.moves.head? = some (.access (.write (s.cfg.base + 0x0400) 4 c)) ∧ t.lcmd = c) ∧
    (s.busy = true → t.busy = false →
      s.moves.head? = some .reset ∨ ((s.moves = [] ∨ s.moves.head? = some .engine) ∧ t.done = true)) ∧
    (s.done = false → t.done = true → s.busy = true ∧ t.busy = false) ∧
    (s.done = true → t.done = false →
      s.moves.head? = some .reset ∨
      (∃ c, s.moves.head? = some (.access (.write (s.cfg.base + 0x0400) 4 c)) ∧ s.busy = false) ∨
      (∃ v : Word, s.moves.head? = some (.access (.write (s.cfg.base + 0x0600) 4 v)) ∧ v.toNat / 2 % 2 = 1)) ∧
    (s.ovr = false → t.ovr = true →
      s.busy = true ∧ ∃ c, s.moves.head? = some (.access (.write (s.cfg.base + 0x0400) 4 c))) ∧
    (s.ovr = true → t.ovr = false →
      s.moves.head? = some .reset ∨
      ∃ v : Word, s.moves.head? = some (.access (.write (s.cfg.base + 0x0600) 4 v)) ∧ v.toNat / 256 % 2 = 1) ∧
    (s.keyValid = false → t.keyValid = true →
      (s.moves = [] ∨ s.moves.head? = some .engine) ∧ s.busy = true ∧ decode s.lcmd = .ok .rsakey ∧
        t.busy = false ∧ t.err = .none) ∧
    (s.keyValid = true → t.keyValid = false →
      s.moves.head? = some .reset ∨
      ((s.moves = [] ∨ s.moves.head? = some .engine) ∧ s.busy = true ∧ decode s.lcmd = .ok .keyclr ∧
        t.busy = false ∧ t.err = .none))

/-- R207: a CMD write while a command runs leaves the command alone: it completes with its own code and results, and OVR
stays set. -/
def Obligations.DroppedCommandLeavesTheRunningOne : Prop :=
  ∀ (s t : State) (c : Word), s.busy = true → engineTurn s = .next t →
    ∃ u, hostAccess (.write (s.cfg.base + 0x0400) 4 c) s = .next u ∧ engineTurn u = .next { t with ovr := true }

/-- R42: the reset state, and that a reset takes every piece of the block's state to it from any state, a running command
included (R230, R231); the parameters are constants. The model's own two lists are not the block's state: what happens to
them is the business of `StepTakesTheNextMove` (log 7). -/
def Obligations.ResetValues : Prop :=
  (∀ c : Config,
    (State.resetWith c).ie = false ∧ (State.resetWith c).busy = false ∧ (State.resetWith c).done = false ∧
    (State.resetWith c).ovr = false ∧ (State.resetWith c).keyValid = false ∧ (State.resetWith c).err = .none ∧
    (State.resetWith c).op0 = 0 ∧ (State.resetWith c).op1 = 0 ∧ (State.resetWith c).op2 = 0 ∧
    (State.resetWith c).res0 = 0 ∧ (State.resetWith c).res1 = 0 ∧ (State.resetWith c).res2 = 0 ∧
    (State.resetWith c).keyN = 0 ∧ (State.resetWith c).keyE = 0 ∧ (State.resetWith c).keyD = 0 ∧
    (State.resetWith c).l0 = 0 ∧ (State.resetWith c).l1 = 0 ∧ (State.resetWith c).l2 = 0 ∧
    (State.resetWith c).lcmd = 0 ∧ (State.resetWith c).irq = false ∧ (State.resetWith c).cfg = c) ∧
  (∃ c : Config, State.reset = State.resetWith c) ∧
  (∀ s : State, ∃ t, takeMove .reset s = .next t ∧
    t = { State.resetWith s.cfg with moves := t.moves, responses := t.responses })

/-- The invariant holds at reset, for every legal W and BASE, and for the reset state of the model. -/
def Obligations.ResetMeetsTheInvariant : Prop :=
  State.reset.Inv ∧ ∀ c : Config, c.wf = true → (State.resetWith c).Inv

/-- Every step keeps the invariant, from any state that meets it: the parameters are legal and every register stays in
its width (R5, R26 to R32, R38); while a command runs DONE is 0 and ERR is NONE, and ERR never holds the reserved code
(R39, R201); a valid key is one that RSAKEY derives, and without one the key registers are 0 (R33). -/
def Obligations.EveryStepKeepsTheInvariant : Prop :=
  ∀ s t : State, s.Inv → step s = .next t → t.Inv

/-- W and BASE are constants, so ID is (R5, R21, R42). -/
def Obligations.ParametersAreConstant : Prop :=
  ∀ s t : State, step s = .next t → t.cfg = s.cfg ∧ busRead 0 t = busRead 0 s

/-- Every accepted command completes (R240): if every pending access is supported, one step more than there are moves
pending leaves the block idle with nothing pending (the bound is that of the model's schedule, log 4). -/
def Obligations.EveryCommandCompletesInTheEnd : Prop :=
  ∀ s : State, (∀ m ∈ s.moves, s.Supports m) →
    ∃ t, Host.Core.run Sys2Proof.core (s.moves.length + 1) s = .next t ∧ t.busy = false ∧ t.moves = []

/-- The results the pseudo-instructions of R91 name: RMODN gives `2^W mod n`, R2MODN `2^(2W) mod n`, MODSQR `a² mod n`,
TOMONT `a·2^W mod n`, and FROMMONT undoes it. -/
def Obligations.PseudoInstructionResults : Prop :=
  ∀ s t : State,
    (s.l2 ≠ 0 → s.l0 = 1 → s.l1 = 0 → exec .barrett s = .next t → t.res0 = 2 ^ s.cfg.width % s.l2) ∧
    (s.l2 ≠ 0 → s.l0 = 2 ^ s.cfg.width % s.l2 → s.l1 = s.l0 → exec .modmul s = .next t →
      t.res0 = 2 ^ (2 * s.cfg.width) % s.l2) ∧
    (s.l2 ≠ 0 → s.l1 = s.l0 → exec .modmul s = .next t → t.res0 = s.l0 ^ 2 % s.l2) ∧
    (s.l2 % 2 = 1 → s.l0 < s.l2 → s.l1 = 2 ^ (2 * s.cfg.width) % s.l2 → exec .montmul s = .next t →
      t.res0 = s.l0 * 2 ^ s.cfg.width % s.l2) ∧
    (s.l2 % 2 = 1 → 3 ≤ s.l2 → s.l0 < s.l2 → s.l1 = 1 → exec .montmul s = .next t →
      t.res0 * 2 ^ s.cfg.width % s.l2 = s.l0)
end

