-- ==== Sys2Proof/Laws/Arith.lean ====
section
/-! SUPPORT. What the reference functions compute: their recurrences, and their values in the terms of Mathlib. -/

namespace Sys2Proof.Machine

/-! ### Euclid (R100) -/

theorem gcdLoop_eq_gcd : ∀ fuel a b, b ≤ fuel → gcdLoop fuel a b = Nat.gcd a b
  | 0, a, b, h => by simp [gcdLoop, Nat.le_zero.mp h]
  | fuel + 1, a, b, h => by
    unfold gcdLoop
    split
    · next hb => simp [hb]
    · next hb =>
      have hlt := Nat.mod_lt a (Nat.pos_of_ne_zero hb)
      rw [gcdLoop_eq_gcd fuel b (a % b) (by omega), Nat.gcd_comm a b, Nat.gcd_rec b a, Nat.gcd_comm]

theorem gcdE_eq_gcd (a b : Nat) : gcdE a b = Nat.gcd a b := gcdLoop_eq_gcd b a b le_rfl

/-! ### Extended Euclid (R101) -/

theorem xgcdRec_fuel : ∀ f g a b, b ≤ f → b ≤ g → xgcdRec f a b = xgcdRec g a b
  | 0, g, a, b, h, _ => by
    obtain rfl := Nat.le_zero.mp h
    cases g <;> simp [xgcdRec]
  | f + 1, 0, a, b, _, h => by
    obtain rfl := Nat.le_zero.mp h
    simp [xgcdRec]
  | f + 1, g + 1, a, b, hf, hg => by
    unfold xgcdRec
    split
    · rfl
    · next hb =>
      have hlt := Nat.mod_lt a (Nat.pos_of_ne_zero hb)
      rw [xgcdRec_fuel f g b (a % b) (by omega) (by omega)]

theorem xgcdR_zero (a : Nat) : xgcdR a 0 = (a, 1, 0) := rfl

theorem xgcdR_step (a b : Nat) (hb : b ≠ 0) :
    xgcdR a b =
      ((xgcdR b (a % b)).1, (xgcdR b (a % b)).2.2,
        (xgcdR b (a % b)).2.1 - ((a / b : Nat) : Int) * (xgcdR b (a % b)).2.2) := by
  obtain ⟨n, rfl⟩ := Nat.exists_eq_succ_of_ne_zero hb
  have hlt : a % (n + 1) < n + 1 := Nat.mod_lt a (Nat.succ_pos n)
  have h : xgcdRec n (n + 1) (a % (n + 1)) = xgcdR (n + 1) (a % (n + 1)) :=
    xgcdRec_fuel _ _ _ _ (by omega) le_rfl
  simp only [Nat.succ_eq_add_one] at *
  rw [show xgcdR a (n + 1) = xgcdRec (n + 1) a (n + 1) from rfl, xgcdRec, if_neg hb, h]

/-- Induction along the recurrence of R101. -/
theorem euclid_induction {P : Nat → Nat → Prop} (base : ∀ a, P a 0)
    (step : ∀ a b, b ≠ 0 → P b (a % b) → P a b) (a b : Nat) : P a b := by
  induction b using Nat.strong_induction_on generalizing a with
  | _ b ih =>
    by_cases hb : b = 0
    · exact hb ▸ base a
    · exact step a b hb (ih _ (Nat.mod_lt a (Nat.pos_of_ne_zero hb)) b)

theorem xgcdR_fst (a b : Nat) : (xgcdR a b).1 = Nat.gcd a b := by
  induction a, b using euclid_induction with
  | base a => simp [xgcdR_zero]
  | step a b hb ih => rw [xgcdR_step a b hb]; simp [ih, Nat.gcd_comm a b, Nat.gcd_rec b a, Nat.gcd_comm]

theorem xgcdR_bezout (a b : Nat) :
    (a : Int) * (xgcdR a b).2.1 + (b : Int) * (xgcdR a b).2.2 = (Nat.gcd a b : Int) := by
  induction a, b using euclid_induction with
  | base a => simp [xgcdR_zero]
  | step a b hb ih =>
    rw [xgcdR_step a b hb, Nat.gcd_comm a b, Nat.gcd_rec b a, Nat.gcd_comm, ← ih]
    have h : ((a % b : Nat) : Int) = a - b * ((a / b : Nat) : Int) := by
      have := Nat.mod_add_div a b
      zify at this
      push_cast
      linarith
    simp only [h]
    ring

/-- The bound of R105. -/
theorem xgcdR_bound (a b : Nat) :
    |(xgcdR a b).2.1| ≤ max 1 ((b / Nat.gcd a b : Nat) : Int) ∧
      |(xgcdR a b).2.2| ≤ max (if b = 0 then 0 else 1) ((a / Nat.gcd a b : Nat) : Int) := by
  induction a, b using euclid_induction with
  | base a => simp [xgcdR_zero]
  | step a b hb ih =>
    have hg : Nat.gcd b (a % b) = Nat.gcd a b := by rw [Nat.gcd_comm a b, Nat.gcd_rec b a, Nat.gcd_comm]
    rw [xgcdR_step a b hb]
    rw [hg] at ih
    set g := Nat.gcd a b with hgdef
    have hgpos : 0 < g := Nat.gcd_pos_of_pos_right a (Nat.pos_of_ne_zero hb)
    obtain ⟨b', hb'⟩ : g ∣ b := Nat.gcd_dvd_right a b
    obtain ⟨a', ha'⟩ : g ∣ a := Nat.gcd_dvd_left a b
    have hb'pos : 0 < b' := by
      rcases Nat.eq_zero_or_pos b' with h | h
      · simp [h] at hb'; exact absurd hb' hb
      · exact h
    have e1 : b / g = b' := by rw [hb']; exact Nat.mul_div_cancel_left _ hgpos
    have e2 : a / g = a' := by rw [ha']; exact Nat.mul_div_cancel_left _ hgpos
    have e3 : a % b = g * (a' % b') := by rw [ha', hb', Nat.mul_mod_mul_left]
    have e4 : a % b / g = a' % b' := by rw [e3]; exact Nat.mul_div_cancel_left _ hgpos
    have e5 : a / b = a' / b' := by rw [ha', hb', Nat.mul_div_mul_left _ _ hgpos]
    have hz : (a % b = 0) ↔ (a' % b' = 0) := by rw [e3]; simp [hgpos.ne']
    rw [e1, e4] at ih
    rw [e1, e2, e5]
    simp only [hz] at ih
    obtain ⟨ihx, ihy⟩ := ih
    set x := (xgcdR b (a % b)).2.1
    set y := (xgcdR b (a % b)).2.2
    have hdiv : ((a' % b' : Nat) : Int) + (b' : Int) * ((a' / b' : Nat) : Int) = a' := by
      exact_mod_cast Nat.mod_add_div a' b'
    have hb1 : (1 : Int) ≤ b' := by exact_mod_cast hb'pos
    have hq : (0 : Int) ≤ ((a' / b' : Nat) : Int) := by positivity
    refine ⟨?_, ?_⟩
    · refine ihy.trans ?_
      split <;> simp
    · simp only [if_neg hb]
      by_cases h0 : a' % b' = 0
      · have hy : (xgcdR b (a % b)) = (b, 1, 0) := by
          rw [hz.mpr h0, xgcdR_zero]
        have : y = 0 := by simp [y, hy]
        have hx : x = 1 := by simp [x, hy]
        simp [this, hx]
      · have hr : (1 : Int) ≤ ((a' % b' : Nat) : Int) := by
          exact_mod_cast Nat.one_le_iff_ne_zero.mpr h0
        have hx' : |x| ≤ ((a' % b' : Nat) : Int) := by rw [max_eq_right hr] at ihx; exact ihx
        have hy' : |y| ≤ (b' : Int) := by
          rw [if_neg h0, max_eq_right hb1] at ihy; exact ihy
        refine le_trans ?_ (le_max_right _ _)
        calc |x - ((a' / b' : Nat) : Int) * y| ≤ |x| + |((a' / b' : Nat) : Int) * y| := abs_sub _ _
          _ = |x| + ((a' / b' : Nat) : Int) * |y| := by rw [abs_mul, abs_of_nonneg hq]
          _ ≤ ((a' % b' : Nat) : Int) + ((a' / b' : Nat) : Int) * b' := by gcongr
          _ = a' := by rw [← hdiv]; ring

/-! ### Reduction and inverse (R120, R122) -/

theorem modRed_eq_emod (a : Int) (n : Nat) (hn : 0 < n) : (modRed a n : Int) = a % n := by
  have hn' : (0 : Int) < n := by exact_mod_cast hn
  have key : a - (n : Int) * a.tdiv n = a.tmod n := by
    have := Int.mul_tdiv_add_tmod a n
    linarith
  unfold modRed
  simp only [key]
  have hlt := Int.tmod_lt_of_pos a hn'
  have hem := Int.emod_nonneg a hn'.ne'
  split
  · next h =>
    have hgt : -(n : Int) < a.tmod n := by
      have := Int.lt_tmod_of_pos a hn'
      linarith
    rw [Int.toNat_of_nonneg (by linarith)]
    have e : (a.tmod n + n) % n = a % n := by
      rw [Int.add_emod_right]
      have := Int.mul_tdiv_add_tmod a n
      conv_rhs => rw [← this]
      rw [Int.add_comm, Int.add_mul_emod_self_left]
    rw [← e, Int.emod_eq_of_lt (by linarith) (by linarith)]
  · next h =>
    rw [Int.toNat_of_nonneg (by linarith)]
    have e : (a.tmod n) % n = a % n := by
      have := Int.mul_tdiv_add_tmod a n
      conv_rhs => rw [← this]
      rw [Int.add_comm, Int.add_mul_emod_self_left]
    rw [← e, Int.emod_eq_of_lt (by linarith) (by linarith)]

theorem modRed_lt (a : Int) (n : Nat) (hn : 0 < n) : modRed a n < n := by
  have h := modRed_eq_emod a n hn
  have := Int.emod_lt_of_pos a (show (0 : Int) < n by exact_mod_cast hn)
  omega

theorem modInv_eq (a n : Nat) :
    modInv a n = if Nat.gcd a n = 1 then some (modRed (xgcdR a n).2.1 n) else none := by
  have hg := xgcdR_fst a n
  unfold modInv
  split
  next g x y h =>
    rw [h] at hg
    simp only at hg
    by_cases h1 : g = 1 <;> simp [← hg, h, h1]

/-- Where the operands are coprime the inverse exists: it is in range and it is an inverse (R122). -/
theorem modInvExists_spec (a n : Nat) (hn : 0 < n) (h : Nat.gcd a n = 1) :
    modInv a n = some (modInvExists a n) ∧ modInvExists a n < n ∧ a * modInvExists a n ≡ 1 [MOD n] := by
  have e : modInvExists a n = modRed (xgcdR a n).2.1 n := by simp [modInvExists, modInv_eq, h]
  refine ⟨by rw [modInv_eq, if_pos h, e], e ▸ modRed_lt _ n hn, ?_⟩
  rw [e, ← Int.natCast_modEq_iff]
  push_cast
  rw [modRed_eq_emod _ n hn]
  have hb := xgcdR_bezout a n
  rw [h] at hb
  calc (a : Int) * ((xgcdR a n).2.1 % n) ≡ a * (xgcdR a n).2.1 [ZMOD n] :=
        (Int.mod_modEq _ _).mul_left _
    _ ≡ a * (xgcdR a n).2.1 + n * (xgcdR a n).2.2 [ZMOD n] := by
        simp [Int.ModEq]
    _ = ((1 : Nat) : Int) := hb

/-! ### The binary chain (R160) -/

theorem modPowLoop_eq : ∀ fuel r b e n, e ≤ fuel → r % n = r →
    modPowLoop fuel r b e n = r * b ^ e % n
  | 0, r, b, e, n, h, hr => by
    obtain rfl := Nat.le_zero.mp h
    simp [modPowLoop, hr]
  | fuel + 1, r, b, e, n, h, hr => by
    unfold modPowLoop
    split
    · next he => simp [he, hr]
    · next he =>
      have hlt : e / 2 ≤ fuel := by omega
      rw [modPowLoop_eq fuel _ _ _ n hlt (by split <;> simp [hr])]
      have hpow : (b * b % n) ^ (e / 2) ≡ b ^ (2 * (e / 2)) [MOD n] := by
        rw [pow_mul, pow_two]
        exact (Nat.mod_modEq _ _).pow _
      split
      · next h1 =>
        have he2 : e = 2 * (e / 2) + 1 := by omega
        conv_rhs => rw [he2, pow_succ]
        have : r * b % n * (b * b % n) ^ (e / 2) ≡ r * b * b ^ (2 * (e / 2)) [MOD n] :=
          (Nat.mod_modEq _ _).mul hpow
        rw [this]
        ring_nf
      · next h1 =>
        have he2 : e = 2 * (e / 2) := by omega
        conv_rhs => rw [he2]
        exact hpow.mul_left r

/-- The chain computes `base^e mod n` (R160). -/
theorem modPow_eq (base e n : Nat) : modPow base e n = base ^ e % n := by
  rw [modPow, modPowLoop_eq e _ _ e n le_rfl (Nat.mod_mod _ _), Nat.mul_mod, Nat.mod_mod, ← Nat.mul_mod, Nat.one_mul,
    ← Nat.pow_mod]

/-! ### Two's complement (R8, R28) -/

theorem enc_lt (n : Nat) (i : Int) : enc n i < 2 ^ n := by
  have hp : (0 : Int) < 2 ^ n := by positivity
  have h1 := Int.emod_lt_of_pos i hp
  have h0 := Int.emod_nonneg i hp.ne'
  unfold enc
  zify
  rw [Int.toNat_of_nonneg h0]
  exact h1

/-- Reading a pattern back gives the integer, where it fits (R8). -/
theorem sext_enc (n : Nat) (i : Int) (h0 : -(2 : Int) ^ n ≤ i) (h1 : i < 2 ^ n) :
    sext (n + 1) (enc (n + 1) i) = i := by
  have hp : (0 : Int) < 2 ^ n := by positivity
  have hs : (2 : Int) ^ (n + 1) = 2 * 2 ^ n := by ring
  have hsN : (2 : Nat) ^ (n + 1) = 2 * 2 ^ n := by ring
  have hc : ((2 ^ n : Nat) : Int) = 2 ^ n := by push_cast; ring
  have hlt := enc_lt (n + 1) i
  unfold sext
  rw [Nat.mod_eq_of_lt hlt, Nat.add_sub_cancel]
  rcases lt_or_ge i 0 with hneg | hpos
  · have he : (enc (n + 1) i : Int) = i + 2 ^ (n + 1) := by
      unfold enc
      rw [Int.toNat_of_nonneg (Int.emod_nonneg _ (by positivity)), ← Int.add_emod_right,
        Int.emod_eq_of_lt (by linarith) (by linarith)]
    have hd : enc (n + 1) i / 2 ^ n = 1 := by
      apply Nat.div_eq_of_lt_le
      · zify; linarith
      · zify; linarith
    rw [hd, he]; push_cast; ring
  · have he : (enc (n + 1) i : Int) = i := by
      unfold enc
      rw [Int.toNat_of_nonneg (Int.emod_nonneg _ (by positivity)), Int.emod_eq_of_lt hpos (by linarith)]
    have hd : enc (n + 1) i / 2 ^ n = 0 := by
      apply Nat.div_eq_of_lt
      zify; linarith
    rw [hd, he]; simp

end Sys2Proof.Machine
end

