-- ==== Sys2Proof/Laws/Decode.lean ====
section
/-! SUPPORT. A word is its three fields (spec/30_encoding.md R82), and the lanes of a word make the word (R63). -/

namespace Sys2Proof

/-- Each bit of a word with given fields (R82). -/
theorem toWord_getLsbD (c : Cmd32) (k : Nat) :
    c.toWord.getLsbD k =
      if k < 8 then c.op.getLsbD k else if k < 9 then c.s else c.rsv.getLsbD (k - 9) := by
  have h : c.toWord.getLsbD k = (c.rsv ++ BitVec.ofBool c.s ++ c.op : BitVec (23 + 1 + 8)).getLsbD k := rfl
  rw [h, BitVec.getLsbD_append]
  by_cases h8 : k < 8
  · simp [h8]
  · simp only [h8, if_false]
    rw [BitVec.getLsbD_append]
    by_cases h9 : k < 9
    · obtain rfl : k = 8 := by omega
      simp
    · simp [h9, show ¬ k - 8 < 1 by omega, show k - 8 - 1 = k - 9 by omega]

theorem ofWord_toWord (c : Cmd32) : Cmd32.ofWord c.toWord = c := by
  have h1 : c.toWord.extractLsb' 0 8 = c.op :=
    BitVec.eq_of_getLsbD_eq fun k hk => by
      rw [BitVec.getLsbD_extractLsb', toWord_getLsbD]
      simp [hk]
  have h2 : c.toWord.getLsbD 8 = c.s := by rw [toWord_getLsbD]; simp
  have h3 : c.toWord.extractLsb' 9 23 = c.rsv :=
    BitVec.eq_of_getLsbD_eq fun k hk => by
      rw [BitVec.getLsbD_extractLsb', toWord_getLsbD]
      simp [hk, show ¬ 9 + k < 8 by omega]
  simp only [Cmd32.ofWord, h1, h2, h3]

theorem toWord_ofWord (w : Word) : (Cmd32.ofWord w).toWord = w :=
  BitVec.eq_of_getLsbD_eq fun k hk => by
    rw [toWord_getLsbD]
    simp only [Cmd32.ofWord, BitVec.getLsbD_extractLsb']
    by_cases h8 : k < 8
    · simp [h8]
    · by_cases h9 : k < 9
      · obtain rfl : k = 8 := by omega
        simp
      · simp [h8, h9, show k - 9 < 23 by omega, show 9 + (k - 9) = k by omega]

/-- A command word laid out lane by lane decodes as the word does (R63). -/
theorem decodeBytes_wordBytes (w : Word) : decodeBytes (wordBytes w) = decode w := by
  have h : (laneByte w 3 ++ laneByte w 2 ++ laneByte w 1 ++ laneByte w 0 : BitVec (8 + 8 + 8 + 8)) = w := by
    refine BitVec.eq_of_getLsbD_eq fun k hk => ?_
    simp only [BitVec.getLsbD_append, laneByte, BitVec.getLsbD_extractLsb']
    by_cases h0 : k < 8
    · simp [h0]
    · by_cases h1 : k - 8 < 8
      · simp [h0, h1, show 8 + (k - 8) = k by omega]
      · by_cases h2 : k - 8 - 8 < 8
        · simp [h0, h1, h2, show 16 + (k - 8 - 8) = k by omega]
        · simp [h0, h1, h2, show k - 8 - 8 - 8 < 8 by omega, show 24 + (k - 8 - 8 - 8) = k by omega]
  exact congrArg decode h

end Sys2Proof
end

