-- ==== Sys2Proof/Laws/State.lean ====
section
/-! SUPPORT. What each named update of the state leaves in each field: one lemma a field, so that no proof unfolds a
record update. -/

namespace Sys2Proof.Machine.State

variable (s : State)

@[simp] theorem width_eq : s.width = s.cfg.width := rfl
@[simp] theorem first_eq : s.first = s.l0 := rfl
@[simp] theorem second_eq : s.second = s.l1 := rfl
@[simp] theorem third_eq : s.third = s.l2 := rfl

@[simp] theorem finish_cfg (c : ErrCode) : (s.finish c).cfg = s.cfg := rfl
@[simp] theorem finish_ie (c : ErrCode) : (s.finish c).ie = s.ie := rfl
@[simp] theorem finish_busy (c : ErrCode) : (s.finish c).busy = false := rfl
@[simp] theorem finish_done (c : ErrCode) : (s.finish c).done = true := rfl
@[simp] theorem finish_err (c : ErrCode) : (s.finish c).err = c := rfl
@[simp] theorem finish_ovr (c : ErrCode) : (s.finish c).ovr = s.ovr := rfl
@[simp] theorem finish_keyValid (c : ErrCode) : (s.finish c).keyValid = s.keyValid := rfl
@[simp] theorem finish_op0 (c : ErrCode) : (s.finish c).op0 = s.op0 := rfl
@[simp] theorem finish_op1 (c : ErrCode) : (s.finish c).op1 = s.op1 := rfl
@[simp] theorem finish_op2 (c : ErrCode) : (s.finish c).op2 = s.op2 := rfl
@[simp] theorem finish_res0 (c : ErrCode) : (s.finish c).res0 = s.res0 := rfl
@[simp] theorem finish_res1 (c : ErrCode) : (s.finish c).res1 = s.res1 := rfl
@[simp] theorem finish_res2 (c : ErrCode) : (s.finish c).res2 = s.res2 := rfl
@[simp] theorem finish_keyN (c : ErrCode) : (s.finish c).keyN = s.keyN := rfl
@[simp] theorem finish_keyE (c : ErrCode) : (s.finish c).keyE = s.keyE := rfl
@[simp] theorem finish_keyD (c : ErrCode) : (s.finish c).keyD = s.keyD := rfl
@[simp] theorem finish_l0 (c : ErrCode) : (s.finish c).l0 = s.l0 := rfl
@[simp] theorem finish_l1 (c : ErrCode) : (s.finish c).l1 = s.l1 := rfl
@[simp] theorem finish_l2 (c : ErrCode) : (s.finish c).l2 = s.l2 := rfl
@[simp] theorem finish_lcmd (c : ErrCode) : (s.finish c).lcmd = s.lcmd := rfl
@[simp] theorem finish_moves (c : ErrCode) : (s.finish c).moves = s.moves := rfl
@[simp] theorem finish_responses (c : ErrCode) : (s.finish c).responses = s.responses := rfl

@[simp] theorem withRes0_cfg (v : Nat) : (s.withRes0 v).cfg = s.cfg := rfl
@[simp] theorem withRes0_ie (v : Nat) : (s.withRes0 v).ie = s.ie := rfl
@[simp] theorem withRes0_busy (v : Nat) : (s.withRes0 v).busy = s.busy := rfl
@[simp] theorem withRes0_done (v : Nat) : (s.withRes0 v).done = s.done := rfl
@[simp] theorem withRes0_err (v : Nat) : (s.withRes0 v).err = s.err := rfl
@[simp] theorem withRes0_ovr (v : Nat) : (s.withRes0 v).ovr = s.ovr := rfl
@[simp] theorem withRes0_keyValid (v : Nat) : (s.withRes0 v).keyValid = s.keyValid := rfl
@[simp] theorem withRes0_op0 (v : Nat) : (s.withRes0 v).op0 = s.op0 := rfl
@[simp] theorem withRes0_op1 (v : Nat) : (s.withRes0 v).op1 = s.op1 := rfl
@[simp] theorem withRes0_op2 (v : Nat) : (s.withRes0 v).op2 = s.op2 := rfl
@[simp] theorem withRes0_res0 (v : Nat) : (s.withRes0 v).res0 = v := rfl
@[simp] theorem withRes0_res1 (v : Nat) : (s.withRes0 v).res1 = s.res1 := rfl
@[simp] theorem withRes0_res2 (v : Nat) : (s.withRes0 v).res2 = s.res2 := rfl
@[simp] theorem withRes0_keyN (v : Nat) : (s.withRes0 v).keyN = s.keyN := rfl
@[simp] theorem withRes0_keyE (v : Nat) : (s.withRes0 v).keyE = s.keyE := rfl
@[simp] theorem withRes0_keyD (v : Nat) : (s.withRes0 v).keyD = s.keyD := rfl
@[simp] theorem withRes0_l0 (v : Nat) : (s.withRes0 v).l0 = s.l0 := rfl
@[simp] theorem withRes0_l1 (v : Nat) : (s.withRes0 v).l1 = s.l1 := rfl
@[simp] theorem withRes0_l2 (v : Nat) : (s.withRes0 v).l2 = s.l2 := rfl
@[simp] theorem withRes0_lcmd (v : Nat) : (s.withRes0 v).lcmd = s.lcmd := rfl
@[simp] theorem withRes0_moves (v : Nat) : (s.withRes0 v).moves = s.moves := rfl
@[simp] theorem withRes0_responses (v : Nat) : (s.withRes0 v).responses = s.responses := rfl

@[simp] theorem withBezout_cfg (g : Nat) (x y : Int) : (s.withBezout g x y).cfg = s.cfg := rfl
@[simp] theorem withBezout_ie (g : Nat) (x y : Int) : (s.withBezout g x y).ie = s.ie := rfl
@[simp] theorem withBezout_busy (g : Nat) (x y : Int) : (s.withBezout g x y).busy = s.busy := rfl
@[simp] theorem withBezout_done (g : Nat) (x y : Int) : (s.withBezout g x y).done = s.done := rfl
@[simp] theorem withBezout_err (g : Nat) (x y : Int) : (s.withBezout g x y).err = s.err := rfl
@[simp] theorem withBezout_ovr (g : Nat) (x y : Int) : (s.withBezout g x y).ovr = s.ovr := rfl
@[simp] theorem withBezout_keyValid (g : Nat) (x y : Int) : (s.withBezout g x y).keyValid = s.keyValid := rfl
@[simp] theorem withBezout_op0 (g : Nat) (x y : Int) : (s.withBezout g x y).op0 = s.op0 := rfl
@[simp] theorem withBezout_op1 (g : Nat) (x y : Int) : (s.withBezout g x y).op1 = s.op1 := rfl
@[simp] theorem withBezout_op2 (g : Nat) (x y : Int) : (s.withBezout g x y).op2 = s.op2 := rfl
@[simp] theorem withBezout_res0 (g : Nat) (x y : Int) : (s.withBezout g x y).res0 = g := rfl
@[simp] theorem withBezout_res1 (g : Nat) (x y : Int) : (s.withBezout g x y).res1 = enc (s.width + 1) x := rfl
@[simp] theorem withBezout_res2 (g : Nat) (x y : Int) : (s.withBezout g x y).res2 = enc (s.width + 1) y := rfl
@[simp] theorem withBezout_keyN (g : Nat) (x y : Int) : (s.withBezout g x y).keyN = s.keyN := rfl
@[simp] theorem withBezout_keyE (g : Nat) (x y : Int) : (s.withBezout g x y).keyE = s.keyE := rfl
@[simp] theorem withBezout_keyD (g : Nat) (x y : Int) : (s.withBezout g x y).keyD = s.keyD := rfl
@[simp] theorem withBezout_l0 (g : Nat) (x y : Int) : (s.withBezout g x y).l0 = s.l0 := rfl
@[simp] theorem withBezout_l1 (g : Nat) (x y : Int) : (s.withBezout g x y).l1 = s.l1 := rfl
@[simp] theorem withBezout_l2 (g : Nat) (x y : Int) : (s.withBezout g x y).l2 = s.l2 := rfl
@[simp] theorem withBezout_lcmd (g : Nat) (x y : Int) : (s.withBezout g x y).lcmd = s.lcmd := rfl
@[simp] theorem withBezout_moves (g : Nat) (x y : Int) : (s.withBezout g x y).moves = s.moves := rfl
@[simp] theorem withBezout_responses (g : Nat) (x y : Int) : (s.withBezout g x y).responses = s.responses := rfl

@[simp] theorem withKey_cfg (n e d : Nat) : (s.withKey n e d).cfg = s.cfg := rfl
@[simp] theorem withKey_ie (n e d : Nat) : (s.withKey n e d).ie = s.ie := rfl
@[simp] theorem withKey_busy (n e d : Nat) : (s.withKey n e d).busy = s.busy := rfl
@[simp] theorem withKey_done (n e d : Nat) : (s.withKey n e d).done = s.done := rfl
@[simp] theorem withKey_err (n e d : Nat) : (s.withKey n e d).err = s.err := rfl
@[simp] theorem withKey_ovr (n e d : Nat) : (s.withKey n e d).ovr = s.ovr := rfl
@[simp] theorem withKey_keyValid (n e d : Nat) : (s.withKey n e d).keyValid = true := rfl
@[simp] theorem withKey_op0 (n e d : Nat) : (s.withKey n e d).op0 = s.op0 := rfl
@[simp] theorem withKey_op1 (n e d : Nat) : (s.withKey n e d).op1 = s.op1 := rfl
@[simp] theorem withKey_op2 (n e d : Nat) : (s.withKey n e d).op2 = s.op2 := rfl
@[simp] theorem withKey_res0 (n e d : Nat) : (s.withKey n e d).res0 = s.res0 := rfl
@[simp] theorem withKey_res1 (n e d : Nat) : (s.withKey n e d).res1 = s.res1 := rfl
@[simp] theorem withKey_res2 (n e d : Nat) : (s.withKey n e d).res2 = s.res2 := rfl
@[simp] theorem withKey_keyN (n e d : Nat) : (s.withKey n e d).keyN = n := rfl
@[simp] theorem withKey_keyE (n e d : Nat) : (s.withKey n e d).keyE = e := rfl
@[simp] theorem withKey_keyD (n e d : Nat) : (s.withKey n e d).keyD = d := rfl
@[simp] theorem withKey_l0 (n e d : Nat) : (s.withKey n e d).l0 = s.l0 := rfl
@[simp] theorem withKey_l1 (n e d : Nat) : (s.withKey n e d).l1 = s.l1 := rfl
@[simp] theorem withKey_l2 (n e d : Nat) : (s.withKey n e d).l2 = s.l2 := rfl
@[simp] theorem withKey_lcmd (n e d : Nat) : (s.withKey n e d).lcmd = s.lcmd := rfl
@[simp] theorem withKey_moves (n e d : Nat) : (s.withKey n e d).moves = s.moves := rfl
@[simp] theorem withKey_responses (n e d : Nat) : (s.withKey n e d).responses = s.responses := rfl

@[simp] theorem withoutKey_cfg : s.withoutKey.cfg = s.cfg := rfl
@[simp] theorem withoutKey_ie : s.withoutKey.ie = s.ie := rfl
@[simp] theorem withoutKey_busy : s.withoutKey.busy = s.busy := rfl
@[simp] theorem withoutKey_done : s.withoutKey.done = s.done := rfl
@[simp] theorem withoutKey_err : s.withoutKey.err = s.err := rfl
@[simp] theorem withoutKey_ovr : s.withoutKey.ovr = s.ovr := rfl
@[simp] theorem withoutKey_keyValid : s.withoutKey.keyValid = false := rfl
@[simp] theorem withoutKey_op0 : s.withoutKey.op0 = s.op0 := rfl
@[simp] theorem withoutKey_op1 : s.withoutKey.op1 = s.op1 := rfl
@[simp] theorem withoutKey_op2 : s.withoutKey.op2 = s.op2 := rfl
@[simp] theorem withoutKey_res0 : s.withoutKey.res0 = s.res0 := rfl
@[simp] theorem withoutKey_res1 : s.withoutKey.res1 = s.res1 := rfl
@[simp] theorem withoutKey_res2 : s.withoutKey.res2 = s.res2 := rfl
@[simp] theorem withoutKey_keyN : s.withoutKey.keyN = 0 := rfl
@[simp] theorem withoutKey_keyE : s.withoutKey.keyE = 0 := rfl
@[simp] theorem withoutKey_keyD : s.withoutKey.keyD = 0 := rfl
@[simp] theorem withoutKey_l0 : s.withoutKey.l0 = s.l0 := rfl
@[simp] theorem withoutKey_l1 : s.withoutKey.l1 = s.l1 := rfl
@[simp] theorem withoutKey_l2 : s.withoutKey.l2 = s.l2 := rfl
@[simp] theorem withoutKey_lcmd : s.withoutKey.lcmd = s.lcmd := rfl
@[simp] theorem withoutKey_moves : s.withoutKey.moves = s.moves := rfl
@[simp] theorem withoutKey_responses : s.withoutKey.responses = s.responses := rfl

@[simp] theorem accept_cfg (c : Word) : (s.accept c).cfg = s.cfg := rfl
@[simp] theorem accept_ie (c : Word) : (s.accept c).ie = s.ie := rfl
@[simp] theorem accept_busy (c : Word) : (s.accept c).busy = true := rfl
@[simp] theorem accept_done (c : Word) : (s.accept c).done = false := rfl
@[simp] theorem accept_err (c : Word) : (s.accept c).err = .none := rfl
@[simp] theorem accept_ovr (c : Word) : (s.accept c).ovr = s.ovr := rfl
@[simp] theorem accept_keyValid (c : Word) : (s.accept c).keyValid = s.keyValid := rfl
@[simp] theorem accept_op0 (c : Word) : (s.accept c).op0 = s.op0 := rfl
@[simp] theorem accept_op1 (c : Word) : (s.accept c).op1 = s.op1 := rfl
@[simp] theorem accept_op2 (c : Word) : (s.accept c).op2 = s.op2 := rfl
@[simp] theorem accept_res0 (c : Word) : (s.accept c).res0 = s.res0 := rfl
@[simp] theorem accept_res1 (c : Word) : (s.accept c).res1 = s.res1 := rfl
@[simp] theorem accept_res2 (c : Word) : (s.accept c).res2 = s.res2 := rfl
@[simp] theorem accept_keyN (c : Word) : (s.accept c).keyN = s.keyN := rfl
@[simp] theorem accept_keyE (c : Word) : (s.accept c).keyE = s.keyE := rfl
@[simp] theorem accept_keyD (c : Word) : (s.accept c).keyD = s.keyD := rfl
@[simp] theorem accept_l0 (c : Word) : (s.accept c).l0 = s.op0 := rfl
@[simp] theorem accept_l1 (c : Word) : (s.accept c).l1 = s.op1 := rfl
@[simp] theorem accept_l2 (c : Word) : (s.accept c).l2 = s.op2 := rfl
@[simp] theorem accept_lcmd (c : Word) : (s.accept c).lcmd = c := rfl
@[simp] theorem accept_moves (c : Word) : (s.accept c).moves = s.moves := rfl
@[simp] theorem accept_responses (c : Word) : (s.accept c).responses = s.responses := rfl

@[simp] theorem overrun_cfg : s.overrun.cfg = s.cfg := rfl
@[simp] theorem overrun_ie : s.overrun.ie = s.ie := rfl
@[simp] theorem overrun_busy : s.overrun.busy = s.busy := rfl
@[simp] theorem overrun_done : s.overrun.done = s.done := rfl
@[simp] theorem overrun_err : s.overrun.err = s.err := rfl
@[simp] theorem overrun_ovr : s.overrun.ovr = true := rfl
@[simp] theorem overrun_keyValid : s.overrun.keyValid = s.keyValid := rfl
@[simp] theorem overrun_op0 : s.overrun.op0 = s.op0 := rfl
@[simp] theorem overrun_op1 : s.overrun.op1 = s.op1 := rfl
@[simp] theorem overrun_op2 : s.overrun.op2 = s.op2 := rfl
@[simp] theorem overrun_res0 : s.overrun.res0 = s.res0 := rfl
@[simp] theorem overrun_res1 : s.overrun.res1 = s.res1 := rfl
@[simp] theorem overrun_res2 : s.overrun.res2 = s.res2 := rfl
@[simp] theorem overrun_keyN : s.overrun.keyN = s.keyN := rfl
@[simp] theorem overrun_keyE : s.overrun.keyE = s.keyE := rfl
@[simp] theorem overrun_keyD : s.overrun.keyD = s.keyD := rfl
@[simp] theorem overrun_l0 : s.overrun.l0 = s.l0 := rfl
@[simp] theorem overrun_l1 : s.overrun.l1 = s.l1 := rfl
@[simp] theorem overrun_l2 : s.overrun.l2 = s.l2 := rfl
@[simp] theorem overrun_lcmd : s.overrun.lcmd = s.lcmd := rfl
@[simp] theorem overrun_moves : s.overrun.moves = s.moves := rfl
@[simp] theorem overrun_responses : s.overrun.responses = s.responses := rfl

@[simp] theorem respond_cfg (v : Word) : (s.respond v).cfg = s.cfg := rfl
@[simp] theorem respond_ie (v : Word) : (s.respond v).ie = s.ie := rfl
@[simp] theorem respond_busy (v : Word) : (s.respond v).busy = s.busy := rfl
@[simp] theorem respond_done (v : Word) : (s.respond v).done = s.done := rfl
@[simp] theorem respond_err (v : Word) : (s.respond v).err = s.err := rfl
@[simp] theorem respond_ovr (v : Word) : (s.respond v).ovr = s.ovr := rfl
@[simp] theorem respond_keyValid (v : Word) : (s.respond v).keyValid = s.keyValid := rfl
@[simp] theorem respond_op0 (v : Word) : (s.respond v).op0 = s.op0 := rfl
@[simp] theorem respond_op1 (v : Word) : (s.respond v).op1 = s.op1 := rfl
@[simp] theorem respond_op2 (v : Word) : (s.respond v).op2 = s.op2 := rfl
@[simp] theorem respond_res0 (v : Word) : (s.respond v).res0 = s.res0 := rfl
@[simp] theorem respond_res1 (v : Word) : (s.respond v).res1 = s.res1 := rfl
@[simp] theorem respond_res2 (v : Word) : (s.respond v).res2 = s.res2 := rfl
@[simp] theorem respond_keyN (v : Word) : (s.respond v).keyN = s.keyN := rfl
@[simp] theorem respond_keyE (v : Word) : (s.respond v).keyE = s.keyE := rfl
@[simp] theorem respond_keyD (v : Word) : (s.respond v).keyD = s.keyD := rfl
@[simp] theorem respond_l0 (v : Word) : (s.respond v).l0 = s.l0 := rfl
@[simp] theorem respond_l1 (v : Word) : (s.respond v).l1 = s.l1 := rfl
@[simp] theorem respond_l2 (v : Word) : (s.respond v).l2 = s.l2 := rfl
@[simp] theorem respond_lcmd (v : Word) : (s.respond v).lcmd = s.lcmd := rfl
@[simp] theorem respond_moves (v : Word) : (s.respond v).moves = s.moves := rfl
@[simp] theorem respond_responses (v : Word) : (s.respond v).responses = s.responses ++ [v] := rfl

@[simp] theorem popMove_cfg : s.popMove.cfg = s.cfg := rfl
@[simp] theorem popMove_ie : s.popMove.ie = s.ie := rfl
@[simp] theorem popMove_busy : s.popMove.busy = s.busy := rfl
@[simp] theorem popMove_done : s.popMove.done = s.done := rfl
@[simp] theorem popMove_err : s.popMove.err = s.err := rfl
@[simp] theorem popMove_ovr : s.popMove.ovr = s.ovr := rfl
@[simp] theorem popMove_keyValid : s.popMove.keyValid = s.keyValid := rfl
@[simp] theorem popMove_op0 : s.popMove.op0 = s.op0 := rfl
@[simp] theorem popMove_op1 : s.popMove.op1 = s.op1 := rfl
@[simp] theorem popMove_op2 : s.popMove.op2 = s.op2 := rfl
@[simp] theorem popMove_res0 : s.popMove.res0 = s.res0 := rfl
@[simp] theorem popMove_res1 : s.popMove.res1 = s.res1 := rfl
@[simp] theorem popMove_res2 : s.popMove.res2 = s.res2 := rfl
@[simp] theorem popMove_keyN : s.popMove.keyN = s.keyN := rfl
@[simp] theorem popMove_keyE : s.popMove.keyE = s.keyE := rfl
@[simp] theorem popMove_keyD : s.popMove.keyD = s.keyD := rfl
@[simp] theorem popMove_l0 : s.popMove.l0 = s.l0 := rfl
@[simp] theorem popMove_l1 : s.popMove.l1 = s.l1 := rfl
@[simp] theorem popMove_l2 : s.popMove.l2 = s.l2 := rfl
@[simp] theorem popMove_lcmd : s.popMove.lcmd = s.lcmd := rfl
@[simp] theorem popMove_moves : s.popMove.moves = s.moves.tail := rfl
@[simp] theorem popMove_responses : s.popMove.responses = s.responses := rfl

@[simp] theorem writeCtrl_cfg (v : Word) : (s.writeCtrl v).cfg = s.cfg := rfl
@[simp] theorem writeCtrl_ie (v : Word) : (s.writeCtrl v).ie = v.getLsbD 0 := rfl
@[simp] theorem writeCtrl_busy (v : Word) : (s.writeCtrl v).busy = s.busy := rfl
@[simp] theorem writeCtrl_done (v : Word) : (s.writeCtrl v).done = s.done := rfl
@[simp] theorem writeCtrl_err (v : Word) : (s.writeCtrl v).err = s.err := rfl
@[simp] theorem writeCtrl_ovr (v : Word) : (s.writeCtrl v).ovr = s.ovr := rfl
@[simp] theorem writeCtrl_keyValid (v : Word) : (s.writeCtrl v).keyValid = s.keyValid := rfl
@[simp] theorem writeCtrl_op0 (v : Word) : (s.writeCtrl v).op0 = s.op0 := rfl
@[simp] theorem writeCtrl_op1 (v : Word) : (s.writeCtrl v).op1 = s.op1 := rfl
@[simp] theorem writeCtrl_op2 (v : Word) : (s.writeCtrl v).op2 = s.op2 := rfl
@[simp] theorem writeCtrl_res0 (v : Word) : (s.writeCtrl v).res0 = s.res0 := rfl
@[simp] theorem writeCtrl_res1 (v : Word) : (s.writeCtrl v).res1 = s.res1 := rfl
@[simp] theorem writeCtrl_res2 (v : Word) : (s.writeCtrl v).res2 = s.res2 := rfl
@[simp] theorem writeCtrl_keyN (v : Word) : (s.writeCtrl v).keyN = s.keyN := rfl
@[simp] theorem writeCtrl_keyE (v : Word) : (s.writeCtrl v).keyE = s.keyE := rfl
@[simp] theorem writeCtrl_keyD (v : Word) : (s.writeCtrl v).keyD = s.keyD := rfl
@[simp] theorem writeCtrl_l0 (v : Word) : (s.writeCtrl v).l0 = s.l0 := rfl
@[simp] theorem writeCtrl_l1 (v : Word) : (s.writeCtrl v).l1 = s.l1 := rfl
@[simp] theorem writeCtrl_l2 (v : Word) : (s.writeCtrl v).l2 = s.l2 := rfl
@[simp] theorem writeCtrl_lcmd (v : Word) : (s.writeCtrl v).lcmd = s.lcmd := rfl
@[simp] theorem writeCtrl_moves (v : Word) : (s.writeCtrl v).moves = s.moves := rfl
@[simp] theorem writeCtrl_responses (v : Word) : (s.writeCtrl v).responses = s.responses := rfl

@[simp] theorem writeStatus_cfg (v : Word) : (s.writeStatus v).cfg = s.cfg := rfl
@[simp] theorem writeStatus_ie (v : Word) : (s.writeStatus v).ie = s.ie := rfl
@[simp] theorem writeStatus_busy (v : Word) : (s.writeStatus v).busy = s.busy := rfl
@[simp] theorem writeStatus_done (v : Word) : (s.writeStatus v).done = (s.done && !v.getLsbD 1) := rfl
@[simp] theorem writeStatus_err (v : Word) : (s.writeStatus v).err = s.err := rfl
@[simp] theorem writeStatus_ovr (v : Word) : (s.writeStatus v).ovr = (s.ovr && !v.getLsbD 8) := rfl
@[simp] theorem writeStatus_keyValid (v : Word) : (s.writeStatus v).keyValid = s.keyValid := rfl
@[simp] theorem writeStatus_op0 (v : Word) : (s.writeStatus v).op0 = s.op0 := rfl
@[simp] theorem writeStatus_op1 (v : Word) : (s.writeStatus v).op1 = s.op1 := rfl
@[simp] theorem writeStatus_op2 (v : Word) : (s.writeStatus v).op2 = s.op2 := rfl
@[simp] theorem writeStatus_res0 (v : Word) : (s.writeStatus v).res0 = s.res0 := rfl
@[simp] theorem writeStatus_res1 (v : Word) : (s.writeStatus v).res1 = s.res1 := rfl
@[simp] theorem writeStatus_res2 (v : Word) : (s.writeStatus v).res2 = s.res2 := rfl
@[simp] theorem writeStatus_keyN (v : Word) : (s.writeStatus v).keyN = s.keyN := rfl
@[simp] theorem writeStatus_keyE (v : Word) : (s.writeStatus v).keyE = s.keyE := rfl
@[simp] theorem writeStatus_keyD (v : Word) : (s.writeStatus v).keyD = s.keyD := rfl
@[simp] theorem writeStatus_l0 (v : Word) : (s.writeStatus v).l0 = s.l0 := rfl
@[simp] theorem writeStatus_l1 (v : Word) : (s.writeStatus v).l1 = s.l1 := rfl
@[simp] theorem writeStatus_l2 (v : Word) : (s.writeStatus v).l2 = s.l2 := rfl
@[simp] theorem writeStatus_lcmd (v : Word) : (s.writeStatus v).lcmd = s.lcmd := rfl
@[simp] theorem writeStatus_moves (v : Word) : (s.writeStatus v).moves = s.moves := rfl
@[simp] theorem writeStatus_responses (v : Word) : (s.writeStatus v).responses = s.responses := rfl

@[simp] theorem resetBlock_cfg : s.resetBlock.cfg = s.cfg := rfl
@[simp] theorem resetBlock_ie : s.resetBlock.ie = false := rfl
@[simp] theorem resetBlock_busy : s.resetBlock.busy = false := rfl
@[simp] theorem resetBlock_done : s.resetBlock.done = false := rfl
@[simp] theorem resetBlock_err : s.resetBlock.err = .none := rfl
@[simp] theorem resetBlock_ovr : s.resetBlock.ovr = false := rfl
@[simp] theorem resetBlock_keyValid : s.resetBlock.keyValid = false := rfl
@[simp] theorem resetBlock_op0 : s.resetBlock.op0 = 0 := rfl
@[simp] theorem resetBlock_op1 : s.resetBlock.op1 = 0 := rfl
@[simp] theorem resetBlock_op2 : s.resetBlock.op2 = 0 := rfl
@[simp] theorem resetBlock_res0 : s.resetBlock.res0 = 0 := rfl
@[simp] theorem resetBlock_res1 : s.resetBlock.res1 = 0 := rfl
@[simp] theorem resetBlock_res2 : s.resetBlock.res2 = 0 := rfl
@[simp] theorem resetBlock_keyN : s.resetBlock.keyN = 0 := rfl
@[simp] theorem resetBlock_keyE : s.resetBlock.keyE = 0 := rfl
@[simp] theorem resetBlock_keyD : s.resetBlock.keyD = 0 := rfl
@[simp] theorem resetBlock_l0 : s.resetBlock.l0 = 0 := rfl
@[simp] theorem resetBlock_l1 : s.resetBlock.l1 = 0 := rfl
@[simp] theorem resetBlock_l2 : s.resetBlock.l2 = 0 := rfl
@[simp] theorem resetBlock_lcmd : s.resetBlock.lcmd = 0 := rfl
@[simp] theorem resetBlock_moves : s.resetBlock.moves = s.moves := rfl
@[simp] theorem resetBlock_responses : s.resetBlock.responses = s.responses := rfl

end Sys2Proof.Machine.State
end

