-- ==== Sys2Proof/Laws/Ops.lean ====
section
/-! SUPPORT. One lemma for each shared operation, saying once everything it can do; and, for each command, its completion
step as cases on the latches (spec/10_state.md R39, R40; spec/60_exceptions.md R204). -/

namespace Sys2Proof.Machine

@[simp] theorem complete_eq (s : State) : complete s = .next (s.finish .none) := rfl

@[simp] theorem raiseError_eq (c : ErrCode) (s : State) : raiseError c s = .next (s.finish c) := rfl

/-- A CMD write is dropped and flagged, or accepted (R39). -/
theorem writeCmd_cases (c : Word) (s : State) :
    (s.busy = true ∧ s.writeCmd c = s.overrun) ∨ (s.busy = false ∧ s.writeCmd c = s.accept c) := by
  unfold State.writeCmd
  cases s.busy <;> simp

/-- Every supported write is one of these (R65). -/
theorem writeReg_cases (r : Reg) (j : Nat) (v : Word) (s : State) :
    writeReg r j v s = s ∨
    (r = .ctrl ∧ j = 0 ∧ writeReg r j v s = s.writeCtrl v) ∨
    (r = .cmd ∧ j = 0 ∧ writeReg r j v s = s.writeCmd v) ∨
    (r = .status ∧ j = 0 ∧ writeReg r j v s = s.writeStatus v) ∨
    (r = .op0 ∧ writeReg r j v s = { s with op0 := withWord s.width s.op0 j v }) ∨
    (r = .op1 ∧ writeReg r j v s = { s with op1 := withWord s.width s.op1 j v }) ∨
    (r = .op2 ∧ writeReg r j v s = { s with op2 := withWord s.width s.op2 j v }) := by
  cases r <;> simp [writeReg] <;> by_cases h : j = 0 <;> simp [h]

/-- A write keeps an operand register in range (R26, R65). -/
theorem withWord_lt {w old : Nat} (h : old < 2 ^ w) (j : Nat) (v : Word) : withWord w old j v < 2 ^ w := by
  unfold withWord zext
  split
  · exact Nat.mod_lt _ (by positivity)
  · exact h

/-- The accesses the block supports, as numbers (R66). -/
theorem supported_iff (c : Config) (addr bytes : Nat) :
    supported c addr bytes = true ↔
      bytes = 4 ∧ c.base ≤ addr ∧ addr < c.base + 0x2000 ∧ (addr - c.base) % 4 = 0 := by
  simp only [supported, Bool.and_eq_true, decide_eq_true_eq, and_assoc]

/-- A host access that does not fault is a supported read or a supported write (R64, R65, R66). -/
theorem hostAccess_next {a : Access} {s t : State} (h : hostAccess a s = .next t) :
    (∃ addr, a = .read addr 4 ∧ supported s.cfg addr 4 = true ∧
      t = s.respond (busRead (addr - s.cfg.base) s)) ∨
    (∃ addr v, a = .write addr 4 v ∧ supported s.cfg addr 4 = true ∧
      t = busWrite (addr - s.cfg.base) v s) := by
  have h4 : ∀ addr bytes, supported s.cfg addr bytes = true → bytes = 4 := by
    intro addr bytes hs
    simp only [supported, Bool.and_eq_true, decide_eq_true_eq] at hs
    exact hs.1.1.1
  cases a with
  | read addr bytes =>
    simp only [hostAccess] at h
    split at h
    · next hs => cases h; obtain rfl := h4 _ _ hs; exact .inl ⟨addr, rfl, hs, rfl⟩
    · cases h
  | write addr bytes v =>
    simp only [hostAccess] at h
    split at h
    · next hs => cases h; obtain rfl := h4 _ _ hs; exact .inr ⟨addr, v, rfl, hs, rfl⟩
    · cases h

/-- Every command completes, and how (R29, R40, R204): with an error and nothing else written, or with RES0 written, or
with XGCD's three results, or with the key written or cleared. -/
theorem exec_cases (i : Instr) (s : State) :
    (∃ c, c ≠ .none ∧ c ≠ .factorNotFound ∧ c ≠ .illegalCmd ∧ exec i s = .next (s.finish c)) ∨
    (∃ v, exec i s = .next ((s.withRes0 v).finish .none)) ∨
    (∃ g x y, i = .xgcd ∧ exec i s = .next ((s.withBezout g x y).finish .none)) ∨
    (i = .rsakey ∧ 2 ≤ s.l0 ∧ 2 ≤ s.l1 ∧ s.l0 * s.l1 < 2 ^ s.cfg.width ∧ gcdE s.l2 (lambda s.l0 s.l1) = 1 ∧
      exec i s = .next ((s.withKey (s.l0 * s.l1) s.l2 (modInvExists s.l2 (lambda s.l0 s.l1))).finish .none)) ∨
    (i = .keyclr ∧ exec i s = .next (s.withoutKey.finish .none)) := by
  cases i with
  | gcd => exact .inr (.inl ⟨_, rfl⟩)
  | xgcd => exact .inr (.inr (.inl ⟨_, _, _, rfl, rfl⟩))
  | modred b =>
    simp only [exec, execModred]
    split
    · exact .inl ⟨.domain, by simp, by simp, by simp, rfl⟩
    · exact .inr (.inl ⟨_, rfl⟩)
  | modinv =>
    simp only [exec, execModinv]
    split
    · exact .inl ⟨.domain, by simp, by simp, by simp, rfl⟩
    · split
      · exact .inl ⟨.noInverse, by simp, by simp, by simp, rfl⟩
      · exact .inr (.inl ⟨_, rfl⟩)
  | modmul =>
    simp only [exec, execModmul]
    split
    · exact .inl ⟨.domain, by simp, by simp, by simp, rfl⟩
    · exact .inr (.inl ⟨_, rfl⟩)
  | montmul =>
    simp only [exec, execMontmul]
    split
    · exact .inl ⟨.domain, by simp, by simp, by simp, rfl⟩
    · split
      · exact .inl ⟨.domain, by simp, by simp, by simp, rfl⟩
      · exact .inr (.inl ⟨_, rfl⟩)
  | barrett =>
    simp only [exec, execBarrett]
    split
    · exact .inl ⟨.domain, by simp, by simp, by simp, rfl⟩
    · exact .inr (.inl ⟨_, rfl⟩)
  | modpow =>
    simp only [exec, execModpow]
    split
    · exact .inl ⟨.domain, by simp, by simp, by simp, rfl⟩
    · exact .inr (.inl ⟨_, rfl⟩)
  | rsakey =>
    simp only [exec, execRsakey]
    split
    · exact .inl ⟨.domain, by simp, by simp, by simp, rfl⟩
    · next h1 =>
      split
      · exact .inl ⟨.domain, by simp, by simp, by simp, rfl⟩
      · next h2 =>
        split
        · exact .inl ⟨.invalidExponent, by simp, by simp, by simp, rfl⟩
        · next h3 =>
          simp only [State.first_eq, State.second_eq, State.third_eq, State.width_eq, not_or, not_lt, not_le,
            ne_eq, not_not] at h1 h2 h3
          exact .inr (.inr (.inr (.inl ⟨trivial, h1.1, h1.2, h2, h3, rfl⟩)))
  | rsaenc =>
    simp only [exec, execRsaenc]
    split
    · exact .inl ⟨.keyNotValid, by simp, by simp, by simp, rfl⟩
    · split
      · exact .inl ⟨.domain, by simp, by simp, by simp, rfl⟩
      · exact .inr (.inl ⟨_, rfl⟩)
  | rsadec =>
    simp only [exec, execRsadec]
    split
    · exact .inl ⟨.keyNotValid, by simp, by simp, by simp, rfl⟩
    · split
      · exact .inl ⟨.domain, by simp, by simp, by simp, rfl⟩
      · exact .inr (.inl ⟨_, rfl⟩)
  | keyclr => exact .inr (.inr (.inr (.inr ⟨rfl, rfl⟩)))

end Sys2Proof.Machine
end

