-- ==== Sys2Proof/Laws/PerInstr.lean ====
section
/-! SUPPORT. Per-command families: a statement about each command as syntax, with one lemma per constructor. -/

/-- The word of a command is legal (spec/30_encoding.md R86): RSV is 0, OP is assigned and S stands only with MODRED. -/
def Sys2Proof.Laws.LegalWord.Statement (i : Sys2Proof.Instr) : Prop :=
  i.wf = true ∧ i.fields.wf = true

namespace Sys2Proof.Laws.LegalWord

theorem gcd : Statement .gcd := ⟨rfl, rfl⟩
theorem xgcd : Statement .xgcd := ⟨rfl, rfl⟩
theorem modred (signed : Bool) : Statement (.modred signed) := by cases signed <;> exact ⟨rfl, rfl⟩
theorem modinv : Statement .modinv := ⟨rfl, rfl⟩
theorem modmul : Statement .modmul := ⟨rfl, rfl⟩
theorem montmul : Statement .montmul := ⟨rfl, rfl⟩
theorem barrett : Statement .barrett := ⟨rfl, rfl⟩
theorem modpow : Statement .modpow := ⟨rfl, rfl⟩
theorem rsakey : Statement .rsakey := ⟨rfl, rfl⟩
theorem rsaenc : Statement .rsaenc := ⟨rfl, rfl⟩
theorem rsadec : Statement .rsadec := ⟨rfl, rfl⟩
theorem keyclr : Statement .keyclr := ⟨rfl, rfl⟩

end Sys2Proof.Laws.LegalWord
end

