-- ==== Sys2Proof/Laws/Step.lean ====
section
/-! SUPPORT. What one step can do, said once (spec/20_memory.md R72, R73). -/

namespace Sys2Proof.Machine

theorem step_nil {s : State} (h : s.moves = []) : step s = engineTurn s := by
  simp [step, h]

theorem step_cons {s : State} {m : Move} {ms : List Move} (h : s.moves = m :: ms) :
    step s = takeMove m s.popMove := by
  simp [step, h]

/-- The engine's turn, where it does something: an illegal word, or a command (R40, R86). -/
theorem engineTurn_cases (s : State) :
    (s.busy = false ∧ engineTurn s = .next s) ∨
    (s.busy = true ∧ (∃ e, decode s.lcmd = .error e) ∧ engineTurn s = .next (s.finish .illegalCmd)) ∨
    (s.busy = true ∧ ∃ i, decode s.lcmd = .ok i ∧ engineTurn s = exec i s) := by
  unfold engineTurn completion
  cases hb : s.busy with
  | false => simp
  | true =>
    cases hd : decode s.lcmd with
    | ok i => exact .inr (.inr ⟨rfl, i, rfl, rfl⟩)
    | error e => exact .inr (.inl ⟨rfl, ⟨e, rfl⟩, rfl⟩)

/-- One step that does not fault (R72): the engine's turn on the state with the move taken, a supported access, or a
reset. With no move pending it is the engine's turn (R240). -/
theorem step_cases {s t : State} (h : step s = .next t) :
    (s.moves = [] ∧ engineTurn s = .next t) ∨
    (∃ ms, s.moves = .engine :: ms ∧ engineTurn s.popMove = .next t) ∨
    (∃ a ms, s.moves = .access a :: ms ∧ hostAccess a s.popMove = .next t) ∨
    (∃ ms, s.moves = .reset :: ms ∧ t = s.popMove.resetBlock) := by
  cases hm : s.moves with
  | nil => rw [step_nil hm] at h; exact .inl ⟨rfl, h⟩
  | cons m ms =>
    rw [step_cons hm] at h
    cases m with
    | engine => exact .inr (.inl ⟨ms, rfl, h⟩)
    | access a => exact .inr (.inr (.inl ⟨a, ms, rfl, h⟩))
    | reset =>
      simp only [takeMove, Host.Outcome.next.injEq] at h
      exact .inr (.inr (.inr ⟨ms, rfl, h.symm⟩))

theorem run_zero (s : State) : Host.Core.run Sys2Proof.core 0 s = .next s := rfl

/-- A run goes on from the state that a step answers. -/
theorem run_succ {s t : State} (k : Nat) (h : step s = .next t) :
    Host.Core.run Sys2Proof.core (k + 1) s = Host.Core.run Sys2Proof.core k t := by
  have h' : Sys2Proof.core.step s = .next t := h
  simp only [Host.Core.run, h']

end Sys2Proof.Machine
end

