-- ==== Sys2Proof/Tests/Slice0.lean ====
section
/-! SUPPORT. The model's own tests. The expected values are those of spec/95_test_vectors.md (sections 2.1 to 2.10), of
the traces R106, R143 and R162, and of hand calculation where a comment says so. The last part gives, for every statement
with hypotheses, states and operands that meet them. -/

namespace Sys2Proof.Tests

open Sys2Proof.Machine

/-! ### Helpers -/

/-- The next state of an outcome, if it is one. -/
def nextOf : Result → Option State
  | .next s    => some s
  | .fault _   => none
  | .refused _ => none

/-- A block (W = 16) with a command in flight on these latches. -/
def running (a b c : Nat) : State := { State.reset with l0 := a, l1 := b, l2 := c, busy := true }

/-- The same, with the key of S7: 61, 53, 17. -/
def keyed (a : Nat) : State := { running a 0 0 with keyN := 3233, keyE := 17, keyD := 2753, keyValid := true }

/-- The error code and RES0 that command `i` leaves. -/
def outcome (i : Instr) (s : State) : Option (ErrCode × Nat) := (nextOf (exec i s)).map fun t => (t.err, t.res0)

/-- The code, the key and KEY_VALID that command `i` leaves. -/
def keyAfter (i : Instr) (s : State) : Option (ErrCode × Nat × Nat × Nat × Bool) :=
  (nextOf (exec i s)).map fun t => (t.err, t.keyN, t.keyE, t.keyD, t.keyValid)

/-- The command that a word decodes to. -/
def decoded (w : Word) : Option Instr :=
  match decode w with
  | .ok i    => some i
  | .error _ => none

/-- STATUS after `w` has been run from reset. -/
def statusAfter (w : Word) : Option Word := (nextOf (step (State.reset.withFetchWord 32 w.toNat))).map statusWord

/-! ### Decoding: the words of R85, bit by bit -/

theorem test_decode_gcd :
    decoded 0b00000000000000000000000000000001#32 = some .gcd := by decide
theorem test_decode_xgcd :
    decoded 0b00000000000000000000000000000010#32 = some .xgcd := by decide
theorem test_decode_modred :
    decoded 0b00000000000000000000000000000011#32 = some (.modred false) := by decide
theorem test_decode_modred_signed :
    decoded 0b00000000000000000000000100000011#32 = some (.modred true) := by decide
theorem test_decode_modinv :
    decoded 0b00000000000000000000000000000100#32 = some .modinv := by decide
theorem test_decode_modmul :
    decoded 0b00000000000000000000000000000101#32 = some .modmul := by decide
theorem test_decode_montmul :
    decoded 0b00000000000000000000000000000110#32 = some .montmul := by decide
theorem test_decode_barrett :
    decoded 0b00000000000000000000000000000111#32 = some .barrett := by decide
theorem test_decode_modpow :
    decoded 0b00000000000000000000000000001000#32 = some .modpow := by decide
theorem test_decode_rsakey :
    decoded 0b00000000000000000000000000001001#32 = some .rsakey := by decide
theorem test_decode_rsaenc :
    decoded 0b00000000000000000000000000001010#32 = some .rsaenc := by decide
theorem test_decode_rsadec :
    decoded 0b00000000000000000000000000001011#32 = some .rsadec := by decide
theorem test_decode_keyclr :
    decoded 0b00000000000000000000000000001100#32 = some .keyclr := by decide

/-- The bytes of MODRED.S as a byte-addressed host lays them out (R63), and the host's entry point on the same word. -/
theorem test_decode_bytes :
    (decodeBytes [0x03, 0x01, 0x00, 0x00]).toOption = some (.modred true) ∧
      decodeTableWord 32 0x00000103 = some (.modred true) := by decide

/-- Anything but four bytes is no word (R80, R88). -/
theorem test_decode_not_one_word :
    (decodeBytes []).toOption = none ∧ (decodeBytes [1, 0, 0]).toOption = none ∧
      (decodeBytes [1, 0, 0, 0, 0]).toOption = none ∧ decodeTableWord 40 1 = none := by decide

/-- The illegal words of section 2.10 leave STATUS = 0x52. -/
theorem test_illegal_words :
    statusAfter 0x00000000 = some 0x52 ∧ statusAfter 0x00000101 = some 0x52 ∧ statusAfter 0x0000000D = some 0x52 ∧
      statusAfter 0x00000203 = some 0x52 ∧ statusAfter 0x80000001 = some 0x52 ∧ statusAfter 0x0000010A = some 0x52 := by
  decide

/-! ### WellFormed refuses an ill-formed term, one for each check -/

theorem test_wf_refuses_reserved_bits :
    Cmd32.reservedClear { op := 0x03, s := false, rsv := 1 } = false ∧
      Cmd32.wf { op := 0x03, s := false, rsv := 1 } = false := by decide
theorem test_wf_refuses_opcode_zero :
    Cmd32.opcodeAssigned { op := 0x00, s := false, rsv := 0 } = false ∧
      Cmd32.wf { op := 0x00, s := false, rsv := 0 } = false := by decide
theorem test_wf_refuses_opcode_above :
    Cmd32.opcodeAssigned { op := 0x0D, s := false, rsv := 0 } = false ∧
      Cmd32.wf { op := 0x0D, s := false, rsv := 0 } = false := by decide
theorem test_wf_refuses_stray_s :
    Cmd32.signAllowed { op := 0x01, s := true, rsv := 0 } = false ∧
      Cmd32.wf { op := 0x01, s := true, rsv := 0 } = false := by decide
theorem test_wf_accepts : Cmd32.wf { op := 0x03, s := true, rsv := 0 } = true := by decide
theorem test_config_refuses_narrow : Config.wf { width := 7, base := 0 } = false := by decide
theorem test_config_refuses_wide : Config.wf { width := 4096, base := 0 } = false := by decide
theorem test_config_refuses_misaligned : Config.wf { width := 8, base := 0x1000 } = false := by decide
theorem test_config_accepts :
    Config.wf { width := 8, base := 0 } = true ∧ Config.wf { width := 4095, base := 0x2000 } = true := by decide

/-! ### The commands -/

theorem test_gcd :
    outcome .gcd (running 48 18 0) = some (.none, 6) ∧ outcome .gcd (running 0 0 0) = some (.none, 0) := by decide

theorem test_gcd_longest_chain : outcome .gcd (running 46368 28657 0) = some (.none, 1) := by decide

/-- R106: the pair of (17, 3120) and its stored patterns. -/
theorem test_xgcd :
    (nextOf (exec .xgcd (running 17 3120 0))).map (fun t => (t.err, t.res0, t.res1, t.res2)) =
      some (.none, 1, 0x1FE91, 2) := by decide

/-- RES1.0 and RES1.1 of XGCD 17, 3120 read -367 and a copy of its sign (R64). -/
theorem test_xgcd_bus_image :
    (nextOf (exec .xgcd (running 17 3120 0))).map (fun t => (busRead 0x1000 t, busRead 0x1004 t, busRead 0x1200 t)) =
      some (0xFFFFFE91, 0xFFFFFFFF, 0x00000002) := by decide

theorem test_modred_unsigned :
    outcome (.modred false) (running 65169 0 3120) = some (.none, 2769) ∧
      outcome (.modred false) (running 5 0 0) = some (.domain, 0) := by decide

theorem test_modred_signed :
    outcome (.modred true) (running 65169 0 3120) = some (.none, 2753) ∧
      outcome (.modred true) (running 32768 0 7) = some (.none, 6) := by decide

theorem test_modinv :
    outcome .modinv (running 17 0 3120) = some (.none, 2753) ∧ outcome .modinv (running 0 0 1) = some (.none, 0) := by
  decide

theorem test_modinv_errors :
    outcome .modinv (running 2 0 3120) = some (.noInverse, 0) ∧
      outcome .modinv (running 5 0 0) = some (.domain, 0) := by decide

theorem test_modmul :
    outcome .modmul (running 65535 65535 65521) = some (.none, 196) ∧
      outcome .modmul (running 5 5 0) = some (.domain, 0) := by decide

theorem test_montmul :
    outcome .montmul (running 65 65 3233) = some (.none, 1315) ∧
      outcome .montmul (running 65534 3 65535) = some (.none, 65532) ∧
      outcome .montmul (running 0 0 1) = some (.none, 0) := by decide

theorem test_montmul_domain :
    outcome .montmul (running 5 5 4) = some (.domain, 0) ∧
      outcome .montmul (running 3233 1 3233) = some (.domain, 0) ∧
      outcome .montmul (running 1 3233 3233) = some (.domain, 0) := by decide

theorem test_barrett :
    outcome .barrett (running 65535 65535 65521) = some (.none, 224) ∧
      outcome .barrett (running 3232 3232 3233) = some (.none, 2356) := by decide

theorem test_modpow :
    outcome .modpow (running 65 17 3233) = some (.none, 2790) ∧ outcome .modpow (running 0 0 7) = some (.none, 1) := by
  decide

theorem test_modpow_full_width : outcome .modpow (running 3 65535 65521) = some (.none, 65329) := by decide

theorem test_rsakey :
    keyAfter .rsakey (running 61 53 17) = some (.none, 3233, 17, 2753, true) ∧
      keyAfter .rsakey (running 61 53 2) = some (.invalidExponent, 0, 0, 0, false) := by decide

theorem test_rsakey_corners :
    keyAfter .rsakey (running 2 2 3) = some (.none, 4, 3, 0, true) ∧
      keyAfter .rsakey (running 257 256 17) = some (.domain, 0, 0, 0, false) := by decide

theorem test_rsaenc :
    outcome .rsaenc (keyed 65) = some (.none, 2790) ∧ outcome .rsaenc (keyed 3233) = some (.domain, 0) := by decide

theorem test_rsaenc_no_key : outcome .rsaenc (running 65 0 0) = some (.keyNotValid, 0) := by decide

theorem test_rsadec :
    outcome .rsadec (keyed 2790) = some (.none, 65) ∧ outcome .rsadec (keyed 610) = some (.none, 61) := by decide

theorem test_rsadec_no_key : outcome .rsadec (running 5 0 0) = some (.keyNotValid, 0) := by decide

theorem test_keyclr :
    keyAfter .keyclr (keyed 5) = some (.none, 0, 0, 0, false) ∧
      keyAfter .keyclr (running 0 0 0) = some (.none, 0, 0, 0, false) := by decide

/-- The chain of 65^17 mod 3233 makes five squarings and two more products, as the trace R162 has rows and "r" updates. -/
theorem test_counted_chain : modPowCounted 65 17 3233 = (2790, 7) ∧ modPowCounted 5 0 1 = (0, 0) := by decide

/-- The other algorithms on their traces: XGCD's loop (R102), n' and REDC (R143). -/
theorem test_reference :
    xgcdI 46368 28657 = (1, 10946, -17711) ∧ negInverse 16 3233 = 10399 ∧ redc 16 3233 4225 = 1315 := by decide

/-! ### The port and reset (section 2.10) -/

theorem test_reset_reads :
    busRead 0x0000 State.reset = 0x4D4D1010 ∧ busRead 0x0400 State.reset = 0 ∧ busRead 0x0600 State.reset = 0 ∧
      busRead 0x0804 State.reset = 0 ∧ busRead 0x1800 State.reset = 0 := by decide

/-- Bits at and above W are dropped (R65); a result register ignores writes. -/
theorem test_bus_writes :
    busRead 0x0800 (busWrite 0x0800 0xFFFFFE91 State.reset) = 0x0000FE91 ∧
      busWrite 0x0E00 5 State.reset = State.reset ∧ busWrite 0x0804 5 State.reset = State.reset := by decide

/-- At W = 40 word 1 holds bits 39:32 (R62; by hand). -/
theorem test_second_word :
    busWrite 0x0804 0xABCDEF12 (State.resetWith ⟨40, 0⟩) = { State.resetWith ⟨40, 0⟩ with op0 := 0x1200000000 } := by
  decide

/-- STATUS writes clear DONE and OVR apart (R25). -/
theorem test_status_write :
    (busWrite 0x0600 0x2 { State.reset with done := true, ovr := true }) = { State.reset with ovr := true } ∧
      (busWrite 0x0600 0x100 { State.reset with done := true, ovr := true }) = { State.reset with done := true } := by
  decide

/-- A command written while one runs is dropped and flagged (R39, R207). -/
theorem test_overrun : busWrite 0x0400 1 (running 1 2 3) = { running 1 2 3 with ovr := true } := by decide

/-- Writing IE while DONE is set raises irq at once (R210). -/
theorem test_irq : (busWrite 0x0200 1 { State.reset with done := true }).irq = true := by decide

/-- A byte access and an offset outside the window are bus errors (R66). -/
theorem test_bus_error :
    nextOf (hostAccess (.read 0 1) State.reset) = none ∧ nextOf (hostAccess (.read 2 4) State.reset) = none ∧
      nextOf (hostAccess (.write 0x2000 4 0) State.reset) = none := by decide

/-- A command written through the port runs in the next step when nothing else is pending (R39, R40, R240). -/
theorem test_write_then_complete :
    (nextOf (step { State.reset with op0 := 48, op1 := 18, moves := [.access (.write 0x400 4 1)] })).bind
      (fun t => (nextOf (step t)).map fun u => (t.busy, u.busy, u.done, u.res0)) = some (true, false, true, 6) := by
  decide

/-- A reset event while a command runs clears everything (R230). -/
theorem test_reset_event :
    nextOf (step { keyed 5 with moves := [.reset] }) = some State.reset := by decide

/-! ### Witnesses: every statement with hypotheses has states and operands that meet them -/

theorem test_witness_OpcodeRowsAreDisjoint : ∃ r ∈ opcodeTable, r.selects 0x00000103 = true := by decide

theorem test_witness_IllegalWordsExactly :
    State.reset.busy = false ∧ (running 1 2 3).busy = true ∧ (decode (running 1 2 3).lcmd).toOption = none ∧
      (decode 0x000000FF#32).toOption = none ∧ (decode 0x0000000D#32).toOption = none ∧
      (decode 0x00000200#32).toOption = none ∧ (decode 0x00000102#32).toOption = none ∧
      (decode 0x0000000C#32).toOption = some .keyclr := by decide

/-- The error that the statement's second part asks for, as it is written there. -/
theorem test_witness_IllegalWordsExactly_error : ∃ e, decode (running 1 2 3).lcmd = .error e :=
  ⟨.reservedOpcode, rfl⟩

theorem test_witness_DecodeEncodeAgree :
    (Instr.modred true).wf = true ∧ decode 0x00000103#32 = .ok (.modred true) ∧ 0x00000103#32 = encode (.modred true) :=
  ⟨rfl, rfl, by decide⟩

theorem test_witness_StepTakesTheNextMove :
    State.reset.moves = [] ∧ ({ State.reset with moves := [.engine] } : State).moves = .engine :: [] ∧
      ({ State.reset with moves := [.access (.read 0 4)] } : State).moves = .access (.read 0 4) :: [] ∧
      ({ State.reset with moves := [.reset] } : State).moves = .reset :: [] := by decide

/-- A command in flight, with nothing pending and with the engine next. -/
theorem test_witness_StepRunsTheDecodedCommand :
    ({ running 48 18 0 with lcmd := 1 } : State).busy = true ∧
      decode ({ running 48 18 0 with lcmd := 1 } : State).lcmd = .ok .gcd ∧
      ({ running 48 18 0 with lcmd := 1 } : State).moves = [] ∧
      ({ running 48 18 0 with lcmd := 1, moves := [.engine, .reset] } : State).moves = .engine :: [.reset] :=
  ⟨rfl, rfl, rfl, rfl⟩

theorem test_witness_GcdFollowsEuclid : (1 : Nat) ≠ 0 ∧ (18 : Nat) ≠ 0 ∧ gcdE 48 18 = gcdE 18 (48 % 18) := by decide

/-- R101 on (48, 18), whose recursive call is (18, 12). -/
theorem test_witness_XgcdFollowsTheRecurrence :
    (18 : Nat) ≠ 0 ∧ xgcdR 18 (48 % 18) = (6, 1, -1) ∧ xgcdR 48 18 = (6, -1, 1 - ((48 / 18 : Nat) : Int) * (-1)) := by
  decide

theorem test_witness_XgcdResult :
    ({ running 65535 65534 0 with res1 := 0x1FFFF } : State).InRange ∧ (running 46368 28657 0).InRange := by decide

/-- The bound's two cases and its last clause at the boundary of W = 8; g = 0 only for (0, 0). -/
theorem test_witness_BezoutCoefficientsFit :
    xgcdR 233 144 = (1, -55, 89) ∧ 0 < 1 ∧ xgcdR 0 0 = (0, 1, 0) ∧ 8 ≤ 8 ∧ 233 < 2 ^ 8 ∧ 144 < 2 ^ 8 ∧
      xgcdR 255 255 = (255, 0, 1) ∧ 255 < 2 ^ 8 := by decide

theorem test_witness_TwosComplementRoundTrip :
    0 < 1 ∧ 1 < 2 ^ 1 ∧ 127 < 2 ^ 8 ∧ 128 < 2 ^ 8 ∧ 255 < 2 ^ 8 ∧
      (-(2 : Int) ^ (8 - 1) ≤ -128 ∧ (-128 : Int) < 2 ^ (8 - 1)) ∧
      (-(2 : Int) ^ (8 - 1) ≤ 127 ∧ (127 : Int) < 2 ^ (8 - 1)) ∧
      sext 8 255 = -1 ∧ sext 8 128 = -128 ∧ sext 8 127 = 127 := by decide

theorem test_witness_ModRedIsTheEuclideanRemainder :
    0 < 1 ∧ 0 < 3120 ∧ modRed (-367) 3120 = 2753 ∧ modRed (-3120) 3120 = 0 := by decide

theorem test_witness_ModredResult : (running 5 0 0).l2 = 0 ∧ (running 65535 0 1).l2 ≠ 0 := by decide

theorem test_witness_ModinvResult :
    (running 5 0 0).l2 = 0 ∧ ((running 2 0 3120).l2 ≠ 0 ∧ Nat.gcd 2 3120 ≠ 1) ∧
      ((running 0 0 1).l2 ≠ 0 ∧ Nat.gcd 0 1 = 1) ∧ ((running 17 0 3120).l2 ≠ 0 ∧ Nat.gcd 17 3120 = 1) := by decide

theorem test_witness_InverseCoefficientIsSmall :
    1 < 2 ∧ Nat.gcd 1 2 = 1 ∧ xgcdR 1 2 = (1, 1, 0) ∧ 1 < 3120 ∧ Nat.gcd 17 3120 = 1 ∧
      xgcdR 17 3120 = (1, -367, 2) := by decide

theorem test_witness_ModmulResult : (running 5 5 0).l2 = 0 ∧ (running 5 5 1).l2 ≠ 0 := by decide

/-- Each ground for DOMAIN alone, and the smallest and the largest odd modulus for a result. -/
theorem test_witness_MontmulResult :
    (running 0 0 0).l2 = 0 ∧ (running 5 5 4).l2 % 2 = 0 ∧ (running 3233 1 3233).l2 ≤ (running 3233 1 3233).l0 ∧
      (running 1 3233 3233).l2 ≤ (running 1 3233 3233).l1 ∧
      ((running 0 0 1).l2 % 2 = 1 ∧ (running 0 0 1).l0 < (running 0 0 1).l2 ∧ (running 0 0 1).l1 < (running 0 0 1).l2) ∧
      ((running 65534 3 65535).l2 % 2 = 1 ∧ (running 65534 3 65535).l0 < 65535 ∧ (running 65534 3 65535).l1 < 65535) := by
  decide

theorem test_witness_RedcComputesMontmul :
    3233 % 2 = 1 ∧ 4225 < 3233 * 2 ^ 16 ∧ (1 % 2 = 1 ∧ 0 < 1 * 2 ^ 16) ∧ (running 65 65 3233).InRange ∧
      (running 65 65 3233).l2 % 2 = 1 ∧ (running 65 65 3233).l0 < (running 65 65 3233).l2 ∧
      (running 65 65 3233).l1 < (running 65 65 3233).l2 := by decide

/-- R144 with n = 3233 and W = 16: 2 and 3 into the domain (1752 and 2628, by hand from R mod n = 876), their Montgomery
product (2023), and back. -/
theorem test_witness_MontgomeryDomainProduct :
    2 ^ (2 * 16) % 3233 = 1155 ∧
      outcome .montmul (running 2 1155 3233) = some (.none, 1752) ∧
      outcome .montmul (running 3 1155 3233) = some (.none, 2628) ∧
      outcome .montmul (running 1752 2628 3233) = some (.none, 2023) ∧
      outcome .montmul (running 2023 1 3233) = some (.none, 6) ∧ 2 * 3 % 3233 = 6 := by decide

/-- The last clause on the product 65 * 65, which is (0, 4225) in W = 16, and on 65535 * 65535. -/
theorem test_witness_BarrettResult :
    (running 1 2 0).l2 = 0 ∧ (running 5 5 1).l2 ≠ 0 ∧
      ((running 0 4225 3233).l2 ≠ 0 ∧ (running 0 4225 3233).l0 = 65 * 65 / 2 ^ 16 ∧
        (running 0 4225 3233).l1 = 65 * 65 % 2 ^ 16) ∧
      ((running 65534 1 7).l0 = 65535 * 65535 / 2 ^ 16 ∧ (running 65534 1 7).l1 = 65535 * 65535 % 2 ^ 16) := by decide

/-- The estimate's clauses, at k = 1 and at a modulus of full width. -/
theorem test_witness_BarrettEstimateIsExact :
    (1 ≤ 1 ∧ 0 < 1 ∧ 3 < 2 ^ (2 * 1) ∧ 2 ^ (1 - 1) ≤ 1 ∧ 1 < 2 ^ 1) ∧
      (1 ≤ 16 ∧ 0 < 65521 ∧ 4294967295 < 2 ^ (2 * 16) ∧ 2 ^ (16 - 1) ≤ 65521 ∧ 65521 < 2 ^ 16) ∧
      (running 65535 65535 65521).InRange ∧ (running 65535 65535 65521).l2 ≠ 0 := by decide

theorem test_witness_ModpowResult : (running 2 5 0).l2 = 0 ∧ (running 5 0 1).l2 ≠ 0 := by decide

theorem test_witness_BinaryChainIsShort : (running 65 17 3233).l2 ≠ 0 ∧ (running 5 0 1).l2 ≠ 0 := by decide

theorem test_witness_RsakeyResult :
    ((running 1 53 17).l0 < 2) ∧ ((running 53 1 17).l1 < 2) ∧
      (2 ≤ (running 257 256 17).l0 ∧ 2 ≤ (running 257 256 17).l1 ∧ 2 ^ (running 257 256 17).cfg.width ≤ 257 * 256) ∧
      (2 ≤ (running 61 53 2).l0 ∧ 2 ≤ (running 61 53 2).l1 ∧ 61 * 53 < 2 ^ (running 61 53 2).cfg.width ∧
        Nat.gcd 2 ((61 - 1) * (53 - 1)) ≠ 1) ∧
      (2 ≤ (running 255 257 7).l0 ∧ 2 ≤ (running 255 257 7).l1 ∧ 255 * 257 < 2 ^ (running 255 257 7).cfg.width ∧
        Nat.gcd 7 ((255 - 1) * (257 - 1)) = 1) ∧
      (2 ≤ (running 2 2 3).l0 ∧ 2 * 2 < 2 ^ (running 2 2 3).cfg.width ∧ Nat.gcd 3 ((2 - 1) * (2 - 1)) = 1) := by decide

theorem test_witness_RsaencResult :
    (running 65 0 0).keyValid = false ∧ ((keyed 3233).keyValid = true ∧ (keyed 3233).keyN ≤ (keyed 3233).l0) ∧
      ((keyed 3232).keyValid = true ∧ (keyed 3232).l0 < (keyed 3232).keyN) := by decide

theorem test_witness_RsadecResult :
    (running 5 0 0).keyValid = false ∧ ((keyed 3233).keyValid = true ∧ (keyed 3233).keyN ≤ (keyed 3233).l0) ∧
      ((keyed 0).keyValid = true ∧ (keyed 0).l0 < (keyed 0).keyN) := by decide

theorem test_witness_KeyclrResult :
    exec .keyclr (keyed 5) = .next { running 5 0 0 with busy := false, done := true } ∧
      (running 9 0 0).keyValid = ({ running 5 0 0 with busy := false, done := true } : State).keyValid := ⟨rfl, rfl⟩

/-- The round trip of S7 meets every premise: u and x are the keyed states with 65 and 2790 latched. -/
theorem test_witness_RsaRoundTrip :
    Nat.Prime 61 ∧ Nat.Prime 53 ∧ (61 : Nat) ≠ 53 ∧
      keyAfter .rsakey (running 61 53 17) = some (.none, 3233, 17, 2753, true) ∧
      (keyed 65).l0 < (keyed 65).keyN ∧ outcome .rsaenc (keyed 65) = some (.none, 2790) ∧
      outcome .rsadec (keyed 2790) = some (.none, 65) :=
  ⟨by norm_num, by norm_num, by norm_num, by decide, by decide, by decide, by decide⟩

theorem test_witness_CompletionWritesOnlyItsResults :
    Instr.gcd ≠ .xgcd ∧ Instr.gcd ≠ .rsakey ∧ Instr.gcd ≠ .keyclr ∧
      outcome .modinv (running 2 0 3120) = some (.noInverse, 0) ∧ ErrCode.noInverse ≠ .none := by decide

/-- An error of a command, and of an illegal word. -/
theorem test_witness_ErrorChangesOnlyStatus :
    (running 5 5 0).busy = true ∧
      (nextOf (engineTurn { running 5 5 0 with lcmd := 5 })).map (fun t => t.err) = some .domain ∧
      (nextOf (engineTurn (running 5 5 0))).map (fun t => t.err) = some .illegalCmd := by decide

/-- The error cases of `test_modinv_errors` and the like; here, that each command answers a next state at all. -/
theorem test_witness_ErrorCodesOfEachCommand :
    (nextOf (exec .gcd (running 1 2 3))).isSome ∧ (nextOf (exec .xgcd (running 1 2 3))).isSome ∧
      (nextOf (exec (.modred true) (running 1 2 3))).isSome ∧ (nextOf (exec .modinv (running 1 2 3))).isSome ∧
      (nextOf (exec .modmul (running 1 2 3))).isSome ∧ (nextOf (exec .montmul (running 1 2 3))).isSome ∧
      (nextOf (exec .barrett (running 1 2 3))).isSome ∧ (nextOf (exec .modpow (running 1 2 3))).isSome ∧
      (nextOf (exec .rsakey (running 1 2 3))).isSome ∧ (nextOf (exec .rsaenc (running 1 2 3))).isSome ∧
      (nextOf (exec .rsadec (running 1 2 3))).isSome ∧ (nextOf (exec .keyclr (running 1 2 3))).isSome := by decide

/-- Several conditions at once: S with RSAENC and no key; no key and a message that is out of range; a zero modulus with
a gcd other than 1; p < 2 with a bad exponent; p*q too large with a bad exponent. -/
theorem test_witness_FirstErrorWins :
    ((running 5 0 0).busy = true ∧ (decode 0x0000010A#32).toOption = none ∧ (running 5 0 0).keyValid = false) ∧
      ((running 5 0 0).keyN ≤ (running 5 0 0).l0) ∧
      ((keyed 3233).keyValid = true ∧ (keyed 3233).keyN ≤ (keyed 3233).l0) ∧
      ((running 5 0 0).l2 = 0 ∧ Nat.gcd 5 0 ≠ 1) ∧
      ((running 1 53 2).l0 < 2) ∧ (2 ^ (running 257 256 2).cfg.width ≤ 257 * 256) := by decide

theorem test_witness_CommandAcceptance : (running 1 2 3).busy = true ∧ State.reset.busy = false := by decide

/-- A completion with IE set, STATUS writes with bit 1 set, and CMD on an idle block. -/
theorem test_witness_InterruptFollowsDone :
    (running 1 2 3).busy = true ∧
      (nextOf (engineTurn { running 1 2 3 with ie := true, lcmd := 1 })).map State.irq = some true ∧
      (0x00000002#32).toNat / 2 % 2 = 1 ∧ (0xFFFFFFFF#32).toNat / 2 % 2 = 1 ∧
      (nextOf (hostAccess (.write (State.reset.cfg.base + 0x0600) 4 2)
        { State.reset with ie := true, done := true })).map State.irq = some false ∧
      (nextOf (hostAccess (.write (State.reset.cfg.base + 0x0400) 4 1)
        { State.reset with ie := true, done := true })).map State.irq = some false := by decide

/-- The first and the last word of a slot, the first reserved offset, the last offset of the window. -/
theorem test_witness_BusReadValues :
    0 < 128 ∧ 127 < 128 ∧ 0x1800 ≤ 0x1800 ∧ (0x1FFC < 0x2000 ∧ 0x1FFC % 4 = 0) ∧
      busRead 0x1FFC State.reset = 0 ∧ busRead (0x1000 + 4 * 1) { State.reset with res1 := 0x1FE91 } = 0xFFFFFFFF := by
  decide

theorem test_witness_ReadsAnswerTheHost : 0 < 0x2000 ∧ 0 % 4 = 0 ∧ 0x1FFC < 0x2000 ∧ 0x1FFC % 4 = 0 := by decide

/-- A function as the statement's `new`: word 0 of a 16-bit register. -/
theorem test_witness_BusWriteEffects :
    0 < 128 ∧ 127 < 128 ∧ 0x0E00 ≤ 0x0E00 ∧ (0x1FFC < 0x2000 ∧ 0x1FFC % 4 = 0) ∧
      (∀ old, withWord State.reset.cfg.width old 0 0x12345678 =
        if 32 * 0 < State.reset.cfg.width
        then (old - old / 2 ^ (32 * 0) % 2 ^ 32 * 2 ^ (32 * 0) + (0x12345678#32).toNat * 2 ^ (32 * 0)) %
          2 ^ State.reset.cfg.width
        else old) :=
  ⟨by decide, by decide, by decide, by decide, fun _ => rfl⟩

theorem test_witness_OperandWriteIsItsSlice :
    0xFFFF < 2 ^ 16 ∧ 15 < 16 ∧ (32 * 0 ≤ 15 ∧ 15 < 32 * 0 + 32) ∧ (2 ^ 40 - 1 < 2 ^ 40 ∧ 32 < 40 ∧ 32 * 1 ≤ 32) := by
  decide

theorem test_witness_ReadAfterWrite : State.reset.InRange ∧ 0 < 128 ∧ 127 < 128 ∧ 4 ≤ 4 ∧ 6 ≤ 6 := by decide

/-- The writes of the largest 40-bit value, one register each. -/
theorem test_witness_WideOperandWrite :
    (State.resetWith ⟨40, 0⟩).InRange ∧ 2 ^ 40 - 1 < 2 ^ (State.resetWith ⟨40, 0⟩).cfg.width ∧
      wrWide ⟨40, 0⟩ .op0 (2 ^ 40 - 1) ++ [] =
        [.access (.write 0x800 4 0xFFFFFFFF), .access (.write 0x804 4 0xFF)] ∧
      wrWide ⟨40, 0⟩ .op1 (2 ^ 40 - 1) ++ [] =
        [.access (.write 0xA00 4 0xFFFFFFFF), .access (.write 0xA04 4 0xFF)] ∧
      wrWide ⟨40, 0⟩ .op2 (2 ^ 40 - 1) ++ [] =
        [.access (.write 0xC00 4 0xFFFFFFFF), .access (.write 0xC04 4 0xFF)] := by decide

/-- GCD 48, 18 through CMD and a WAIT of two polls. -/
theorem test_witness_CommandThenWait :
    ({ State.reset with op0 := 48, op1 := 18, moves := cmdLine State.reset.cfg .gcd :: (waitTrace State.reset.cfg 2 ++ []) }
        : State).busy = false ∧
      cmdLine State.reset.cfg .gcd :: (waitTrace State.reset.cfg 2 ++ []) =
        [.access (.write 0x400 4 1), .access (.read 0x600 4), .access (.read 0x600 4), .engine,
          .access (.read 0x600 4)] ∧
      outcome .gcd { running 48 18 0 with op0 := 48, op1 := 18, lcmd := 1, responses := [1, 1] } = some (.none, 6) := by
  decide

/-- Each ground for a bus error alone, and the two ends of the window. -/
theorem test_witness_UnsupportedAccessFaults :
    (¬ (1 = 4 ∧ State.reset.cfg.base ≤ 0 ∧ 0 < State.reset.cfg.base + 0x2000 ∧ (0 - State.reset.cfg.base) % 4 = 0)) ∧
      (¬ (4 = 4 ∧ State.reset.cfg.base ≤ 2 ∧ 2 < State.reset.cfg.base + 0x2000 ∧ (2 - State.reset.cfg.base) % 4 = 0)) ∧
      (¬ (4 = 4 ∧ State.reset.cfg.base ≤ 0x2000 ∧ 0x2000 < State.reset.cfg.base + 0x2000 ∧
        (0x2000 - State.reset.cfg.base) % 4 = 0)) ∧
      (4 = 4 ∧ State.reset.cfg.base ≤ 0x1FFC ∧ 0x1FFC < State.reset.cfg.base + 0x2000 ∧
        (0x1FFC - State.reset.cfg.base) % 4 = 0) := by decide

/-- Both outcomes of the statement: a step, and a fault. -/
theorem test_witness_OnlyUnsupportedAccessesStop :
    step State.reset = .next State.reset ∧
      step { State.reset with moves := [.access (.read 2 4)] } = .fault (.busError 2 4) := ⟨rfl, rfl⟩

theorem test_witness_OperandWriteCommutesWithCompletion :
    4 ≤ 4 ∧ 6 ≤ 6 ∧ 127 < 128 ∧ (nextOf (engineTurn { running 48 18 0 with lcmd := 1 })).isSome := by decide

/-- A host write that changes OP0, and a completion that changes RES0. -/
theorem test_witness_OperandsAndResultsHaveOneWriter :
    (nextOf (step { State.reset with moves := [.access (.write 0x800 4 7)] })).map (fun t => t.op0) = some 7 ∧
      (some (Move.access (.write 0x800 4 7)) ≠ some .reset) ∧
      (nextOf (step { running 48 18 0 with lcmd := 1 })).map (fun t => t.res0) = some 6 := by decide

/-- A reset, RSAKEY and KEYCLR change the key. -/
theorem test_witness_KeyChangesOnlyByKeyCommands :
    (nextOf (step { keyed 5 with moves := [.reset] })).map (fun t => t.keyN) = some 0 ∧ (keyed 5).keyN ≠ 0 ∧
      (nextOf (step { running 61 53 17 with lcmd := 9 })).map (fun t => t.keyN) = some 3233 ∧
      (nextOf (step { keyed 5 with lcmd := 0xC })).map (fun t => t.keyN) = some 0 := by decide

/-- Two states that differ in KEY_D only, whose next step is RSAENC's completion; and a fault. -/
theorem test_witness_KeyDIsNotRevealed :
    State.SameButKeyD { keyed 65 with lcmd := 0xA } { keyed 65 with lcmd := 0xA, keyD := 1 } ∧
      ¬ State.CompletesRsadec { keyed 65 with lcmd := 0xA } ∧
      (nextOf (step { keyed 65 with lcmd := 0xA })).map (fun t => t.res0) = some 2790 ∧
      step { keyed 65 with moves := [.access (.read 2 4)] } = .fault (.busError 2 4) := by
  refine ⟨rfl, fun h => ?_, by decide, rfl⟩
  have hd : decode 0x0000000A#32 = .ok .rsaenc := rfl
  have := hd.symm.trans h.2.1
  cases this

/-- Each listed change happens: BUSY up and down, DONE up and down, OVR up and down, KEY_VALID up and, by KEYCLR and by a
reset, down. -/
theorem test_witness_FlagsChangeOnlyAsListed :
    (nextOf (step { State.reset with moves := [.access (.write 0x400 4 1)] })).map (fun t => t.busy) = some true ∧
      (nextOf (step { running 1 2 3 with lcmd := 1 })).map (fun t => (t.busy, t.done)) = some (false, true) ∧
      (nextOf (step { State.reset with done := true, moves := [.access (.write 0x600 4 2)] })).map (fun t => t.done) =
        some false ∧
      (nextOf (step { running 1 2 3 with moves := [.access (.write 0x400 4 1)] })).map (fun t => t.ovr) = some true ∧
      (nextOf (step { State.reset with ovr := true, moves := [.access (.write 0x600 4 0x100)] })).map (fun t => t.ovr) =
        some false ∧
      (nextOf (step { running 61 53 17 with lcmd := 9 })).map (fun t => t.keyValid) = some true ∧
      (nextOf (step { keyed 5 with lcmd := 0xC })).map (fun t => t.keyValid) = some false ∧
      (nextOf (step { keyed 5 with moves := [.reset] })).map (fun t => t.keyValid) = some false := by decide

theorem test_witness_DroppedCommandLeavesTheRunningOne :
    (running 1 2 3).busy = true ∧ (nextOf (engineTurn { running 1 2 3 with lcmd := 1 })).isSome := by decide

theorem test_witness_ResetMeetsTheInvariant :
    Config.wf { width := 8, base := 0 } = true ∧ Config.wf { width := 4095, base := 0x2000 } = true := by decide

/-- A state with a valid key and a command in flight meets the invariant, and its step answers a next state. -/
theorem test_witness_EveryStepKeepsTheInvariant :
    ({ keyed 65 with lcmd := 0xA } : State).Inv ∧ (nextOf (step { keyed 65 with lcmd := 0xA })).isSome := by
  refine ⟨⟨by decide, by decide, fun _ => ⟨61, 53, by decide⟩, fun h => ?_⟩, by decide⟩
  cases h

theorem test_witness_ParametersAreConstant : step State.reset = .next State.reset := rfl

/-- A pending read inside the window and a reset are supported. -/
theorem test_witness_EveryCommandCompletesInTheEnd :
    ∀ m ∈ ({ State.reset with moves := [.access (.read 0x1FFC 4), .reset, .engine] } : State).moves,
      State.Supports State.reset m := by
  intro m hm
  simp only [List.mem_cons, List.not_mem_nil, or_false] at hm
  rcases hm with rfl | rfl | rfl
  · show supported _ _ _ = true
    decide
  · trivial
  · trivial

/-- RMODN, R2MODN, MODSQR, TOMONT and FROMMONT on n = 3233 (876, 1155, 992, 1979, 65). -/
theorem test_witness_PseudoInstructionResults :
    outcome .barrett (running 1 0 3233) = some (.none, 876) ∧ 2 ^ 16 % 3233 = 876 ∧
      outcome .modmul (running 876 876 3233) = some (.none, 1155) ∧
      outcome .modmul (running 65 65 3233) = some (.none, 992) ∧
      (3233 % 2 = 1 ∧ 65 < 3233 ∧ 2 ^ (2 * 16) % 3233 = 1155) ∧
      outcome .montmul (running 65 1155 3233) = some (.none, 1979) ∧
      (3 ≤ 3233 ∧ outcome .montmul (running 1979 1 3233) = some (.none, 65)) := by decide

end Sys2Proof.Tests
end

section
/-! SUPPORT. The statements about the whole block and about the bit-level functions of spec/00_scope.md: the invariant and
its steps, the constant parameters, operand writes during a command, two's complement. -/

namespace Sys2Proof.Machine

/-- `s` with other values in OP0 to OP2. -/
def State.withOperands (a b c : Nat) (s : State) : State := { s with op0 := a, op1 := b, op2 := c }

/-! ### What the engine leaves alone -/

/-- A command changes neither the parameters nor the operand registers (R10, R29). -/
theorem exec_frame {i : Instr} {s t : State} (h : exec i s = .next t) :
    t.cfg = s.cfg ∧ t.op0 = s.op0 ∧ t.op1 = s.op1 ∧ t.op2 = s.op2 := by
  obtain ⟨c, -, -, -, he⟩ | ⟨v, he⟩ | ⟨g, x, y, -, he⟩ | ⟨-, -, -, -, -, he⟩ | ⟨-, he⟩ := exec_cases i s <;>
    · rw [he] at h
      cases h
      simp

/-- Nor does the engine's turn (R10, R40). -/
theorem engineTurn_frame {s t : State} (h : engineTurn s = .next t) :
    t.cfg = s.cfg ∧ t.op0 = s.op0 ∧ t.op1 = s.op1 ∧ t.op2 = s.op2 := by
  obtain ⟨-, he⟩ | ⟨-, -, he⟩ | ⟨-, i, -, he⟩ := engineTurn_cases s
  · rw [he] at h; cases h; simp
  · rw [he] at h; cases h; simp
  · exact exec_frame (he ▸ h)

/-! ### Where RES0 comes from -/

/-- What a command may leave in RES0 (R29): the old value, a gcd of the operands, or a residue of the modulus or of
KEY_N. -/
def State.Res0Source (s : State) (v : Nat) : Prop :=
  v = s.res0 ∨ v = Nat.gcd s.l0 s.l1 ∨ v < s.l2 ∨ v < s.keyN

/-- A command whose first check fails keeps RES0 (R204). -/
theorem res0Source_of_check {bad : Prop} [Decidable bad] {c : ErrCode} {s t : State} {r : Result}
    (h : (if bad then raiseError c s else r) = .next t)
    (hr : ¬ bad → r = .next t → s.Res0Source t.res0) : s.Res0Source t.res0 := by
  split at h
  · cases h; exact .inl rfl
  · next hok => exact hr hok h

theorem res0Source_of_modulus {v : Nat} {s t : State} (h : complete (s.withRes0 v) = .next t)
    (hv : v < s.l2) : s.Res0Source t.res0 := by
  cases h; exact .inr (.inr (.inl hv))

theorem modPow_lt (b e : Nat) {n : Nat} (hn : 0 < n) : modPow b e n < n :=
  modPow_eq b e n ▸ Nat.mod_lt _ hn

/-- RSAENC and RSADEC leave a residue of KEY_N (R184, R185). -/
theorem res0Source_of_key {e : Nat} {s t : State} (hlt : ¬ s.keyN ≤ s.l0)
    (h : complete (s.withRes0 (modPow s.l0 e s.keyN)) = .next t) : s.Res0Source t.res0 := by
  cases h; exact .inr (.inr (.inr (modPow_lt _ _ (by omega))))

theorem exec_res0Source {i : Instr} {s t : State} (h : exec i s = .next t) : s.Res0Source t.res0 := by
  cases i with
  | gcd => cases h; exact .inr (.inl (gcdE_eq_gcd _ _))
  | xgcd => cases h; exact .inr (.inl (xgcdR_fst _ _))
  | modred b =>
    exact res0Source_of_check h fun hn h => res0Source_of_modulus h (modRed_lt _ _ (Nat.pos_of_ne_zero hn))
  | modinv =>
    refine res0Source_of_check h fun hn h => ?_
    rw [modInv_eq] at h
    by_cases hg : Nat.gcd s.first s.third = 1
    · rw [if_pos hg] at h
      exact res0Source_of_modulus h (modRed_lt _ _ (Nat.pos_of_ne_zero hn))
    · rw [if_neg hg] at h
      cases h; exact .inl rfl
  | modmul =>
    exact res0Source_of_check h fun hn h => res0Source_of_modulus h (Nat.mod_lt _ (Nat.pos_of_ne_zero hn))
  | montmul =>
    exact res0Source_of_check h fun hn h => res0Source_of_check h fun _ h =>
      res0Source_of_modulus h (Nat.mod_lt _ (Nat.pos_of_ne_zero fun h0 => hn (.inl h0)))
  | barrett =>
    exact res0Source_of_check h fun hn h => res0Source_of_modulus h (Nat.mod_lt _ (Nat.pos_of_ne_zero hn))
  | modpow =>
    exact res0Source_of_check h fun hn h => res0Source_of_modulus h (modPow_lt _ _ (Nat.pos_of_ne_zero hn))
  | rsakey =>
    refine res0Source_of_check h fun _ h => res0Source_of_check h fun _ h => res0Source_of_check h fun _ h => ?_
    cases h; exact .inl rfl
  | rsaenc => exact res0Source_of_check h fun _ h => res0Source_of_check h res0Source_of_key
  | rsadec => exact res0Source_of_check h fun _ h => res0Source_of_check h res0Source_of_key
  | keyclr => cases h; exact .inl rfl

theorem gcd_lt_of_lt {a b n : Nat} (ha : a < n) (hb : b < n) : Nat.gcd a b < n := by
  rcases Nat.eq_zero_or_pos a with rfl | hpos
  · rwa [Nat.gcd_zero_left]
  · exact (Nat.gcd_le_left b hpos).trans_lt ha

theorem State.InRange.operands_lt {s : State} (hs : s.InRange) :
    s.op0 < 2 ^ s.width ∧ s.op1 < 2 ^ s.width ∧ s.op2 < 2 ^ s.width := by
  obtain ⟨-, hop0, hop1, hop2, -⟩ := hs
  exact ⟨hop0, hop1, hop2⟩

theorem State.InRange.latches_lt {s : State} (hs : s.InRange) :
    s.l0 < 2 ^ s.width ∧ s.l1 < 2 ^ s.width ∧ s.l2 < 2 ^ s.width := by
  obtain ⟨-, -, -, -, -, -, -, -, -, -, hlatches⟩ := hs
  exact hlatches

theorem State.Res0Source.lt {s : State} {v : Nat} (hv : s.Res0Source v) (hs : s.InRange) :
    v < 2 ^ s.width := by
  obtain ⟨hl0, hl1, hl2⟩ := hs.latches_lt
  obtain ⟨-, -, -, -, hres0, -, -, hkeyN, -⟩ := hs
  obtain rfl | rfl | hv | hv := hv
  · exact hres0
  · exact gcd_lt_of_lt hl0 hl1
  · exact hv.trans hl2
  · exact hv.trans hkeyN

/-! ### The invariant under each update of the state -/

namespace State

variable {s : State}

theorem inRange_withRes0 {v : Nat} (hs : s.InRange) (hv : v < 2 ^ s.width) : (s.withRes0 v).InRange := by
  obtain ⟨hcfg, hop0, hop1, hop2, -, hrest⟩ := hs
  exact ⟨hcfg, hop0, hop1, hop2, hv, hrest⟩

/-- RES1 and RES2 are stored as W+1 bits, whatever the integers (R28). -/
theorem inRange_withBezout {g : Nat} (x y : Int) (hs : s.InRange) (hg : g < 2 ^ s.width) :
    (s.withBezout g x y).InRange := by
  obtain ⟨hcfg, hop0, hop1, hop2, -, -, -, hrest⟩ := hs
  exact ⟨hcfg, hop0, hop1, hop2, hg, enc_lt _ x, enc_lt _ y, hrest⟩

theorem inRange_withKey {n e d : Nat} (hs : s.InRange) (hn : n < 2 ^ s.width) (he : e < 2 ^ s.width)
    (hd : d < 2 ^ s.width) : (s.withKey n e d).InRange := by
  obtain ⟨hcfg, hop0, hop1, hop2, hres0, hres1, hres2, -, -, -, hlatches⟩ := hs
  exact ⟨hcfg, hop0, hop1, hop2, hres0, hres1, hres2, hn, he, hd, hlatches⟩

theorem inRange_withoutKey (hs : s.InRange) : s.withoutKey.InRange := by
  obtain ⟨hcfg, hop0, hop1, hop2, hres0, hres1, hres2, -, -, -, hlatches⟩ := hs
  exact ⟨hcfg, hop0, hop1, hop2, hres0, hres1, hres2, by positivity, by positivity, by positivity, hlatches⟩

theorem inRange_accept (c : Word) (hs : s.InRange) : (s.accept c).InRange := by
  obtain ⟨hcfg, hop0, hop1, hop2, hres0, hres1, hres2, hkeyN, hkeyE, hkeyD, -⟩ := hs
  exact ⟨hcfg, hop0, hop1, hop2, hres0, hres1, hres2, hkeyN, hkeyE, hkeyD, hop0, hop1, hop2⟩

/-- `λ` is a positive number below `p * q` for the `p` and `q` of a key (R180, R181). -/
theorem lambda_bounds {p q : Nat} (hp : 2 ≤ p) (hq : 2 ≤ q) : 0 < lambda p q ∧ lambda p q < p * q :=
  ⟨Nat.mul_pos (by omega) (by omega), Nat.mul_lt_mul_of_lt_of_le (by omega) (by omega) (by omega)⟩

/-- The key that RSAKEY derives (R181) is a legal one (R33). -/
theorem keyLegal_withKey {p q e : Nat} (hp : 2 ≤ p) (hq : 2 ≤ q) (he : gcdE e (lambda p q) = 1) :
    (s.withKey (p * q) e (modInvExists e (lambda p q))).KeyLegal := by
  have hinv := modInvExists_spec e (lambda p q) (lambda_bounds hp hq).1 (gcdE_eq_gcd e _ ▸ he)
  exact ⟨fun _ => ⟨p, q, hp, hq, rfl, he, hinv.1⟩, nofun⟩

theorem keyLegal_withoutKey : s.withoutKey.KeyLegal := ⟨nofun, fun _ => ⟨rfl, rfl, rfl⟩⟩

/-- A completion needs the ranges and the key only: it sets the flags itself (R40, R204). -/
theorem inv_finish {c : ErrCode} (hc : c ≠ .factorNotFound) (hr : s.InRange) (hk : s.KeyLegal) :
    (s.finish c).Inv :=
  ⟨hr, ⟨nofun, hc⟩, hk⟩

theorem inv_accept (c : Word) (hs : s.Inv) : (s.accept c).Inv := by
  obtain ⟨hrange, -, hkey⟩ := hs
  exact ⟨inRange_accept c hrange, ⟨fun _ => ⟨rfl, rfl⟩, nofun⟩, hkey⟩

/-- A STATUS write can only clear DONE (R25). -/
theorem inv_writeStatus (v : Word) (hs : s.Inv) : (s.writeStatus v).Inv := by
  obtain ⟨hrange, ⟨hbusy, herr⟩, hkey⟩ := hs
  refine ⟨hrange, ⟨fun hb => ⟨?_, (hbusy hb).2⟩, herr⟩, hkey⟩
  simp [(hbusy hb).1]

/-! The invariant does not read the model's two lists, IE or OVR. -/

@[simp] theorem inv_popMove : s.popMove.Inv ↔ s.Inv := Iff.rfl
@[simp] theorem inv_respond (v : Word) : (s.respond v).Inv ↔ s.Inv := Iff.rfl
@[simp] theorem inv_writeCtrl (v : Word) : (s.writeCtrl v).Inv ↔ s.Inv := Iff.rfl
@[simp] theorem inv_overrun : s.overrun.Inv ↔ s.Inv := Iff.rfl

theorem inv_withOperands {a b c : Nat} (hs : s.Inv) (ha : a < 2 ^ s.width) (hb : b < 2 ^ s.width)
    (hc : c < 2 ^ s.width) : (s.withOperands a b c).Inv := by
  obtain ⟨⟨hcfg, -, -, -, hrest⟩, hflags, hkey⟩ := hs
  exact ⟨⟨hcfg, ha, hb, hc, hrest⟩, hflags, hkey⟩

theorem inv_resetWith {c : Config} (hc : c.wf = true) : (resetWith c).Inv := by
  have h0 (n : Nat) : 0 < 2 ^ n := by positivity
  exact ⟨⟨hc, h0 _, h0 _, h0 _, h0 _, h0 _, h0 _, h0 _, h0 _, h0 _, h0 _, h0 _, h0 _⟩, ⟨nofun, nofun⟩,
    nofun, fun _ => ⟨rfl, rfl, rfl⟩⟩

theorem inv_resetBlock (hs : s.Inv) : s.resetBlock.Inv := by
  obtain ⟨⟨hcfg, -⟩, -⟩ := hs
  exact inv_resetWith hcfg

end State

/-! ### The invariant under a step -/

theorem exec_keeps_inv {i : Instr} {s t : State} (hs : s.Inv) (h : exec i s = .next t) : t.Inv := by
  have hres0 := (exec_res0Source h).lt hs.1
  obtain ⟨hrange, -, hkey⟩ := hs
  obtain ⟨c, -, hc, -, he⟩ | ⟨v, he⟩ | ⟨g, x, y, -, he⟩ | ⟨-, hp, hq, hn, hgcd, he⟩ | ⟨-, he⟩ := exec_cases i s <;>
    (rw [he] at h; cases h)
  · exact State.inv_finish hc hrange hkey
  · exact State.inv_finish nofun (State.inRange_withRes0 hrange hres0) hkey
  · exact State.inv_finish nofun (State.inRange_withBezout x y hrange hres0) hkey
  · obtain ⟨hpos, hlt⟩ := State.lambda_bounds hp hq
    have hd := (modInvExists_spec s.l2 _ hpos (gcdE_eq_gcd _ _ ▸ hgcd)).2.1
    obtain ⟨-, -, hl2⟩ := hrange.latches_lt
    exact State.inv_finish nofun (State.inRange_withKey hrange hn hl2 (hd.trans (hlt.trans hn)))
      (State.keyLegal_withKey hp hq hgcd)
  · exact State.inv_finish nofun (State.inRange_withoutKey hrange) State.keyLegal_withoutKey

theorem engineTurn_keeps_inv {s t : State} (hs : s.Inv) (h : engineTurn s = .next t) : t.Inv := by
  obtain ⟨-, he⟩ | ⟨-, -, he⟩ | ⟨-, i, -, he⟩ := engineTurn_cases s
  · rw [he] at h; cases h; exact hs
  · rw [he] at h; cases h
    obtain ⟨hrange, -, hkey⟩ := hs
    exact State.inv_finish nofun hrange hkey
  · exact exec_keeps_inv hs (he ▸ h)

theorem writeCmd_keeps_inv {s : State} (c : Word) (hs : s.Inv) : (s.writeCmd c).Inv := by
  obtain ⟨-, he⟩ | ⟨-, he⟩ := writeCmd_cases c s <;> rw [he]
  · exact State.inv_overrun.mpr hs
  · exact State.inv_accept c hs

theorem writeReg_keeps_inv {s : State} (r : Reg) (j : Nat) (v : Word) (hs : s.Inv) : (writeReg r j v s).Inv := by
  obtain ⟨hop0, hop1, hop2⟩ := hs.1.operands_lt
  obtain he | ⟨-, -, he⟩ | ⟨-, -, he⟩ | ⟨-, -, he⟩ | ⟨-, he⟩ | ⟨-, he⟩ | ⟨-, he⟩ := writeReg_cases r j v s <;> rw [he]
  · exact hs
  · exact (State.inv_writeCtrl v).mpr hs
  · exact writeCmd_keeps_inv v hs
  · exact State.inv_writeStatus v hs
  · exact State.inv_withOperands hs (withWord_lt hop0 j v) hop1 hop2
  · exact State.inv_withOperands hs hop0 (withWord_lt hop1 j v) hop2
  · exact State.inv_withOperands hs hop0 hop1 (withWord_lt hop2 j v)

theorem hostAccess_keeps_inv {a : Access} {s t : State} (hs : s.Inv) (h : hostAccess a s = .next t) : t.Inv := by
  obtain ⟨addr, -, -, rfl⟩ | ⟨addr, v, -, -, rfl⟩ := hostAccess_next h
  · exact (State.inv_respond _).mpr hs
  · exact writeReg_keeps_inv _ _ v hs

/-- Settles O57, by cases on the move that the step takes. -/
theorem everyStepKeepsTheInvariant : Obligations.EveryStepKeepsTheInvariant := by
  intro s t hs h
  have hpop : s.popMove.Inv := State.inv_popMove.mpr hs
  obtain ⟨-, h⟩ | ⟨ms, -, h⟩ | ⟨a, ms, -, h⟩ | ⟨ms, -, rfl⟩ := step_cases h
  · exact engineTurn_keeps_inv hs h
  · exact engineTurn_keeps_inv hpop h
  · exact hostAccess_keeps_inv hpop h
  · exact State.inv_resetBlock hpop

/-- Settles O56: the reference block has legal parameters. -/
theorem resetMeetsTheInvariant : Obligations.ResetMeetsTheInvariant :=
  ⟨State.inv_resetWith (by decide), fun _ => State.inv_resetWith⟩

/-! ### The parameters are constant -/

theorem writeCmd_cfg (c : Word) (s : State) : (s.writeCmd c).cfg = s.cfg := by
  obtain ⟨-, he⟩ | ⟨-, he⟩ := writeCmd_cases c s <;> rw [he]
  · rw [State.overrun_cfg]
  · rw [State.accept_cfg]

theorem writeReg_cfg (r : Reg) (j : Nat) (v : Word) (s : State) : (writeReg r j v s).cfg = s.cfg := by
  obtain he | ⟨-, -, he⟩ | ⟨-, -, he⟩ | ⟨-, -, he⟩ | ⟨-, he⟩ | ⟨-, he⟩ | ⟨-, he⟩ := writeReg_cases r j v s <;> rw [he]
  · rw [State.writeCtrl_cfg]
  · exact writeCmd_cfg v s
  · rw [State.writeStatus_cfg]

theorem hostAccess_cfg {a : Access} {s t : State} (h : hostAccess a s = .next t) : t.cfg = s.cfg := by
  obtain ⟨addr, -, -, rfl⟩ | ⟨addr, v, -, -, rfl⟩ := hostAccess_next h
  · rfl
  · exact writeReg_cfg _ _ v s

theorem step_cfg {s t : State} (h : step s = .next t) : t.cfg = s.cfg := by
  obtain ⟨-, h⟩ | ⟨ms, -, h⟩ | ⟨a, ms, -, h⟩ | ⟨ms, -, rfl⟩ := step_cases h
  · exact (engineTurn_frame h).1
  · exact (engineTurn_frame h).1
  · exact hostAccess_cfg (s := s.popMove) h
  · rfl

/-- Offset 0 reads ID, which shows the parameters only (R21). -/
theorem busRead_zero (s : State) : busRead 0 s = idWord s.cfg := rfl

/-- Settles O58: no step changes the parameters, and ID is a function of them. -/
theorem parametersAreConstant : Obligations.ParametersAreConstant := by
  intro s t h
  exact ⟨step_cfg h, by rw [busRead_zero, busRead_zero, step_cfg h]⟩

/-! ### Operand writes and the command in flight -/

/-- A change of the state carried through an outcome. -/
def mapNext (f : State → State) : Result → Result
  | .next s    => .next (f s)
  | .fault r   => .fault r
  | .refused r => .refused r

/-- A check whose condition does not read the operand registers, with the error's completion carried through. -/
theorem mapNext_check {bad : Prop} [Decidable bad] {a b c : Nat} {code : ErrCode} {s : State} {r r' : Result}
    (h : r' = mapNext (State.withOperands a b c) r) :
    (if bad then raiseError code (s.withOperands a b c) else r') =
      mapNext (State.withOperands a b c) (if bad then raiseError code s else r) := by
  split
  · rfl
  · exact h

/-- A command reads the latches and the key, never the operand registers (R38, R40). -/
theorem exec_withOperands (i : Instr) (a b c : Nat) (s : State) :
    exec i (s.withOperands a b c) = mapNext (State.withOperands a b c) (exec i s) := by
  cases i with
  | gcd => rfl
  | xgcd => rfl
  | modred _ => exact mapNext_check rfl
  | modinv =>
    refine mapNext_check ?_
    rw [show modInv (s.withOperands a b c).first (s.withOperands a b c).third = modInv s.first s.third from rfl]
    cases modInv s.first s.third <;> rfl
  | modmul => exact mapNext_check rfl
  | montmul => exact mapNext_check (mapNext_check rfl)
  | barrett => exact mapNext_check rfl
  | modpow => exact mapNext_check rfl
  | rsakey => exact mapNext_check (mapNext_check (mapNext_check rfl))
  | rsaenc => exact mapNext_check (mapNext_check rfl)
  | rsadec => exact mapNext_check (mapNext_check rfl)
  | keyclr => rfl

theorem completion_withOperands (a b c : Nat) (s : State) :
    completion (s.withOperands a b c) = mapNext (State.withOperands a b c) (completion s) := by
  unfold completion
  rw [show (s.withOperands a b c).lcmd = s.lcmd from rfl]
  cases decode s.lcmd with
  | ok i => exact exec_withOperands i a b c s
  | error _ => rfl

theorem engineTurn_withOperands (a b c : Nat) (s : State) :
    engineTurn (s.withOperands a b c) = mapNext (State.withOperands a b c) (engineTurn s) := by
  unfold engineTurn
  rw [show (s.withOperands a b c).busy = s.busy from rfl, completion_withOperands]
  cases s.busy <;> rfl

theorem slotOf_wordOffset {k j : Nat} (hj : j < 128) : slotOf (k * 0x200 + 4 * j) = k := by
  unfold slotOf; omega

theorem wordIndex_wordOffset {k j : Nat} (hj : j < 128) : wordIndex (k * 0x200 + 4 * j) = j := by
  unfold wordIndex; omega

theorem busWrite_wordOffset {k j : Nat} (hj : j < 128) (v : Word) (s : State) :
    busWrite (k * 0x200 + 4 * j) v s = writeReg (regOfSlot k) j v s := by
  rw [busWrite, slotOf_wordOffset hj, wordIndex_wordOffset hj]

/-- A write to a word of OP0, OP1 or OP2 stores operands that depend only on W and on the operands before it (R65). -/
theorem operandWrite_eq_withOperands {k j : Nat} (hk : 4 ≤ k) (hk' : k ≤ 6) (hj : j < 128) (v : Word) (s : State) :
    ∃ a b c, ∀ t : State, t.cfg = s.cfg → t.op0 = s.op0 → t.op1 = s.op1 → t.op2 = s.op2 →
      busWrite (k * 0x200 + 4 * j) v t = t.withOperands a b c := by
  simp only [busWrite_wordOffset hj]
  obtain rfl | rfl | rfl : k = 4 ∨ k = 5 ∨ k = 6 := by omega
  · refine ⟨withWord s.width s.op0 j v, s.op1, s.op2, fun t hcfg h0 h1 h2 => ?_⟩
    rw [State.width, ← hcfg, ← h0, ← h1, ← h2]; rfl
  · refine ⟨s.op0, withWord s.width s.op1 j v, s.op2, fun t hcfg h0 h1 h2 => ?_⟩
    rw [State.width, ← hcfg, ← h0, ← h1, ← h2]; rfl
  · refine ⟨s.op0, s.op1, withWord s.width s.op2 j v, fun t hcfg h0 h1 h2 => ?_⟩
    rw [State.width, ← hcfg, ← h0, ← h1, ← h2]; rfl

/-- Settles O49: the write replaces the operand registers, which the engine neither reads nor writes. -/
theorem operandWriteCommutesWithCompletion : Obligations.OperandWriteCommutesWithCompletion := by
  intro s t k j v hk hk' hj h
  obtain ⟨hcfg, h0, h1, h2⟩ := engineTurn_frame h
  obtain ⟨a, b, c, hwrite⟩ := operandWrite_eq_withOperands hk hk' hj v s
  rw [hwrite s rfl rfl rfl rfl, hwrite t hcfg h0 h1 h2, engineTurn_withOperands, h]
  rfl

/-! ### Two's complement -/

/-- The value of an N-bit pattern, N = `n + 1`, by its top bit (R8). -/
theorem sext_of_lt {n v : Nat} (hv : v < 2 ^ (n + 1)) :
    sext (n + 1) v = if v < 2 ^ n then (v : Int) else (v : Int) - 2 ^ (n + 1) := by
  unfold sext
  rw [Nat.mod_eq_of_lt hv, Nat.add_sub_cancel]
  split
  · next hlow => simp [Nat.div_eq_of_lt hlow]
  · next hhigh =>
    have hdiv : v / 2 ^ n = 1 := Nat.div_eq_of_lt_le (by omega) (by omega)
    simp [hdiv]

/-- Writing back what was read gives the pattern (R8). -/
theorem enc_sext {n v : Nat} (hv : v < 2 ^ (n + 1)) : enc (n + 1) (sext (n + 1) v) = v := by
  have hmod : sext (n + 1) v % 2 ^ (n + 1) = v := by
    have hv' : (v : Int) < 2 ^ (n + 1) := by exact_mod_cast hv
    rw [sext_of_lt hv]
    split
    · exact Int.emod_eq_of_lt (by omega) hv'
    · rw [Int.sub_emod_right, Int.emod_eq_of_lt (by omega) hv']
  rw [enc, hmod, Int.toNat_natCast]

/-- Settles O15: for N = `n + 1`, the two laws above and the model's own `enc_lt` and `sext_enc`. -/
theorem twosComplementRoundTrip : Obligations.TwosComplementRoundTrip := by
  intro N hN
  obtain ⟨n, rfl⟩ := Nat.exists_eq_succ_of_ne_zero hN.ne'
  exact ⟨fun v hv => ⟨sext_of_lt hv, enc_sext hv⟩, fun i hlo hhi => ⟨enc_lt _ i, sext_enc n i hlo hhi⟩⟩

end Sys2Proof.Machine
end

section
/-! SUPPORT. The statements that need one case of a definition: the step, a command's acceptance, the STATUS write,
reset. -/

namespace Sys2Proof.Machine

/-! ### The engine's turn and accepted commands -/

/-- A command's word decodes to the command (R85). -/
theorem decode_encode (i : Instr) : decode (encode i) = .ok i := by
  rw [decode, encode, ofWord_toWord]
  cases i <;> rfl

theorem engineTurn_of_idle {s : State} (hb : s.busy = false) : engineTurn s = .next s := by
  simp [engineTurn, hb]

theorem engineTurn_of_decode {s : State} {i : Instr} (hb : s.busy = true) (hd : decode s.lcmd = .ok i) :
    engineTurn s = exec i s := by
  simp [engineTurn, completion, hb, hd]

/-- Taking the first move leaves the others pending. -/
theorem popMove_of_cons {s : State} {m : Move} {ms : List Move} (h : s.moves = m :: ms) :
    s.popMove = { s with moves := ms } := by
  simp [State.popMove, h]

theorem popMove_of_nil {s : State} (h : s.moves = []) : s.popMove = s := by
  cases s; cases h; rfl

/-- Settles O6: the cases of `step`. -/
theorem stepTakesTheNextMove : Obligations.StepTakesTheNextMove := by
  refine fun s => ⟨step_nil, fun ms h => ?_, fun a ms h => ?_, fun ms h => ?_⟩ <;>
    rw [step_cons h, popMove_of_cons h] <;> rfl

/-- Settles O7: the step is the engine's turn, and the engine's turn is the command's completion. -/
theorem stepRunsTheDecodedCommand : Obligations.StepRunsTheDecodedCommand := by
  intro s i hb hd
  refine ⟨fun h => ?_, fun ms h => ?_⟩
  · rw [step_nil h, engineTurn_of_decode hb hd]
  · rw [step_cons h, popMove_of_cons h]
    exact engineTurn_of_decode hb hd

/-- The host's acceptance of a command's word, with the engine next (R39; log 8). -/
theorem withFetchWord_encode (s : State) (i : Instr) :
    s.withFetchWord 32 (encode i).toNat = { s.accept (encode i) with moves := .engine :: s.moves } := by
  rw [State.withFetchWord, Nat.mod_eq_of_lt (encode i).isLt, BitVec.ofNat_toNat, BitVec.setWidth_eq]

/-- Settles O8, by `decode_encode`: LCMD holds the command's own word. -/
theorem acceptedWordIsRunNext : Obligations.AcceptedWordIsRunNext := by
  intro s i
  refine ⟨?_, ?_⟩
  · rw [decodeTableWord, if_pos le_rfl, Nat.mod_eq_of_lt (encode i).isLt, BitVec.ofNat_toNat, BitVec.setWidth_eq,
      decodeBytes_wordBytes, decode_encode]
  · rw [withFetchWord_encode, step_cons rfl]
    exact engineTurn_of_decode (s := s.accept (encode i)) rfl (decode_encode i)

/-! ### Supported accesses at a word of the window -/

theorem supported_offset (c : Config) {off : Nat} (hlt : off < 0x2000) (h4 : off % 4 = 0) :
    supported c (c.base + off) 4 = true := by
  rw [supported_iff]
  omega

/-- A supported read answers the word and changes nothing else (R64, R69). -/
theorem hostAccess_read (s : State) {off : Nat} (hlt : off < 0x2000) (h4 : off % 4 = 0) :
    hostAccess (.read (s.cfg.base + off) 4) s = .next (s.respond (busRead off s)) := by
  rw [hostAccess, if_pos (supported_offset s.cfg hlt h4), Nat.add_sub_cancel_left]

/-- A supported write is the bus write (R65). -/
theorem hostAccess_write (s : State) (v : Word) {off : Nat} (hlt : off < 0x2000) (h4 : off % 4 = 0) :
    hostAccess (.write (s.cfg.base + off) 4 v) s = .next (busWrite off v s) := by
  rw [hostAccess, if_pos (supported_offset s.cfg hlt h4), Nat.add_sub_cancel_left]

theorem hostAccess_writeCmd (s : State) (c : Word) :
    hostAccess (.write (s.cfg.base + 0x0400) 4 c) s = .next (s.writeCmd c) :=
  hostAccess_write s c (by decide) (by decide)

theorem writeCmd_of_busy {s : State} (c : Word) (hb : s.busy = true) : s.writeCmd c = s.overrun := by
  simp [State.writeCmd, hb]

theorem writeCmd_of_idle {s : State} (c : Word) (hb : s.busy = false) : s.writeCmd c = s.accept c := by
  simp [State.writeCmd, hb]

/-- Settles O37: the access is a write to CMD, whose two cases are the statement's. -/
theorem commandAcceptance : Obligations.CommandAcceptance := by
  refine fun s c => ⟨fun hb => ?_, fun hb => ?_⟩
  · rw [hostAccess_writeCmd, writeCmd_of_busy c hb]; rfl
  · rw [hostAccess_writeCmd, writeCmd_of_idle c hb]; rfl

/-- A flag that is cleared where a bit of the word is 1 (R25). -/
theorem and_not_getLsbD (b : Bool) (v : Word) (k : Nat) :
    (b && !v.getLsbD k) = if v.toNat / 2 ^ k % 2 = 1 then false else b := by
  rw [BitVec.getLsbD, Nat.testBit_eq_decide_div_mod_eq]
  by_cases h : v.toNat / 2 ^ k % 2 = 1 <;> simp [h]

/-- Settles O38: DONE follows bit 1 of the written word, and OVR bit 8. -/
theorem statusWrite : Obligations.StatusWrite := by
  intro s v
  rw [hostAccess_write s v (by decide) (by decide), show busWrite 0x0600 v s = s.writeStatus v from rfl,
    State.writeStatus, and_not_getLsbD, and_not_getLsbD]
  rfl

/-- Settles O55: each field of the reset state is its value in R42, and the reset event keeps only the two lists. -/
theorem resetValues : Obligations.ResetValues :=
  ⟨fun _ => ⟨rfl, rfl, rfl, rfl, rfl, rfl, rfl, rfl, rfl, rfl, rfl, rfl, rfl, rfl, rfl, rfl, rfl, rfl, rfl, rfl, rfl⟩,
    ⟨_, rfl⟩, fun s => ⟨s.resetBlock, rfl, rfl⟩⟩

end Sys2Proof.Machine
end

section
/-! SUPPORT. What a completion does to the state (R29, R40, R204): one update, which the command's inputs determine. -/

namespace Sys2Proof.Machine

/-! ### The updates that a completion can make -/

/-- What a completion writes before ERR, BUSY and DONE (R29): nothing and an error's code, RES0, XGCD's three results,
or the key. -/
inductive Update where
  | error (c : ErrCode)
  | res0 (v : Nat)
  | bezout (g : Nat) (x y : Int)
  | key (n e d : Nat)
  | noKey

namespace Update

/-- The state that the completion leaves, in the terms of the model's operations. -/
def apply : Update → State → State
  | error c, s      => s.finish c
  | res0 v, s       => (s.withRes0 v).finish .none
  | bezout g x y, s => (s.withBezout g x y).finish .none
  | key n e d, s    => (s.withKey n e d).finish .none
  | noKey, s        => s.withoutKey.finish .none

/-- Which updates are left to a word that decodes to `r` (R29): RSAKEY and KEYCLR write the key and no result, XGCD
alone writes RES1 and RES2, and KEYCLR has no error. -/
def Allowed (r : Except DecodeError Instr) : Update → Prop
  | error c      => c ≠ .none ∧ r ≠ .ok .keyclr
  | res0 _       => r ≠ .ok .rsakey ∧ r ≠ .ok .keyclr
  | bezout _ _ _ => r = .ok .xgcd
  | key _ _ _    => r = .ok .rsakey
  | noKey        => r = .ok .keyclr

variable (u : Update) (s : State)

@[simp] theorem apply_busy : (u.apply s).busy = false := by cases u <;> rfl
@[simp] theorem apply_done : (u.apply s).done = true := by cases u <;> rfl
@[simp] theorem apply_ovr : (u.apply s).ovr = s.ovr := by cases u <;> rfl
@[simp] theorem apply_op0 : (u.apply s).op0 = s.op0 := by cases u <;> rfl
@[simp] theorem apply_op1 : (u.apply s).op1 = s.op1 := by cases u <;> rfl
@[simp] theorem apply_op2 : (u.apply s).op2 = s.op2 := by cases u <;> rfl
@[simp] theorem apply_cfg : (u.apply s).cfg = s.cfg := by cases u <;> rfl
@[simp] theorem apply_moves : (u.apply s).moves = s.moves := by cases u <;> rfl

/-- Nothing but the result registers, the key and STATUS changes (R29, R40). -/
theorem apply_frame :
    u.apply s = { s with
      res0 := (u.apply s).res0, res1 := (u.apply s).res1, res2 := (u.apply s).res2, keyN := (u.apply s).keyN,
      keyE := (u.apply s).keyE, keyD := (u.apply s).keyD, keyValid := (u.apply s).keyValid, err := (u.apply s).err,
      busy := (u.apply s).busy, done := (u.apply s).done } := by
  cases u <;> rfl

end Update

/-! ### The inputs of a command determine its update -/

/-- `t` has the values of `s` in everything that the completion of a word that decodes to `r` may read: W, the latches,
the key (R38, R40), and KEY_D for RSADEC only (R32). -/
structure State.SameInputs (r : Except DecodeError Instr) (s t : State) : Prop where
  cfg      : t.cfg = s.cfg
  l0       : t.l0 = s.l0
  l1       : t.l1 = s.l1
  l2       : t.l2 = s.l2
  keyValid : t.keyValid = s.keyValid
  keyN     : t.keyN = s.keyN
  keyE     : t.keyE = s.keyE
  keyD     : r = .ok .rsadec → t.keyD = s.keyD

theorem State.SameInputs.refl (r : Except DecodeError Instr) (s : State) : s.SameInputs r s :=
  ⟨rfl, rfl, rfl, rfl, rfl, rfl, rfl, fun _ => rfl⟩

/-- The completion rule `f` of a word that decodes to `r` makes one allowed update on all states with the inputs
of `s`. -/
def Determined (r : Except DecodeError Instr) (s : State) (f : State → Result) : Prop :=
  ∃ u : Update, u.Allowed r ∧ ∀ t, s.SameInputs r t → f t = .next (u.apply t)

section
variable {r : Except DecodeError Instr} {s : State}

theorem determined_res0 {v : State → Nat} (hr : r ≠ .ok .rsakey ∧ r ≠ .ok .keyclr)
    (hv : ∀ t, s.SameInputs r t → v t = v s) : Determined r s fun t => complete (t.withRes0 (v t)) :=
  ⟨.res0 (v s), hr, fun t ht => congrArg (fun w => complete (t.withRes0 w)) (hv t ht)⟩

/-- A check that reads the inputs only, before a rule that they determine. -/
theorem determined_check {bad : State → Prop} [∀ t, Decidable (bad t)] {c : ErrCode} {f : State → Result}
    (hbad : ∀ t, s.SameInputs r t → (bad t ↔ bad s)) (hc : c ≠ .none) (hr : r ≠ .ok .keyclr)
    (hf : Determined r s f) : Determined r s fun t => if bad t then raiseError c t else f t := by
  by_cases hs : bad s
  · exact ⟨.error c, ⟨hc, hr⟩, fun t ht => if_pos ((hbad t ht).mpr hs)⟩
  · obtain ⟨u, hu, hf⟩ := hf
    exact ⟨u, hu, fun t ht => (if_neg (mt (hbad t ht).mp hs)).trans (hf t ht)⟩

/-- The check of the modulus that the modular commands begin with. -/
theorem determined_modulus {f : State → Result} (hr : r ≠ .ok .keyclr) (hf : Determined r s f) :
    Determined r s fun t => if t.third = 0 then raiseError .domain t else f t :=
  determined_check (fun t ht => by rw [State.third_eq, ht.l2]) nofun hr hf

/-- RSAENC and RSADEC: the checks of the key and of the message, and a result (R184, R185). -/
theorem determined_keyed {v : State → Nat} (hr : r ≠ .ok .rsakey ∧ r ≠ .ok .keyclr)
    (hv : ∀ t, s.SameInputs r t → v t = v s) :
    Determined r s fun t =>
      if t.keyValid = false then raiseError .keyNotValid t
      else if t.keyN ≤ t.first then raiseError .domain t
      else complete (t.withRes0 (v t)) :=
  determined_check (fun t ht => by rw [ht.keyValid]) nofun hr.2
    (determined_check (fun t ht => by rw [State.first_eq, ht.keyN, ht.l0]) nofun hr.2 (determined_res0 hr hv))

end

/-- Every command makes one update, which R29 allows it and its inputs determine. -/
theorem exec_determined (i : Instr) (s : State) : Determined (.ok i) s (exec i) := by
  cases i with
  | gcd => exact determined_res0 ⟨nofun, nofun⟩ fun t ht => by simp [ht.l0, ht.l1]
  | xgcd =>
    refine ⟨.bezout (xgcdR s.l0 s.l1).1 (xgcdR s.l0 s.l1).2.1 (xgcdR s.l0 s.l1).2.2, rfl, fun t ht => ?_⟩
    simp [exec, execXgcd, ht.l0, ht.l1, Update.apply]
  | modred b =>
    refine determined_modulus nofun (determined_res0 ⟨nofun, nofun⟩ fun t ht => ?_)
    simp [State.firstAs, ht.l0, ht.l2, ht.cfg]
  | modinv =>
    refine determined_modulus nofun ?_
    cases h : modInv s.l0 s.l2 with
    | none => exact ⟨.error .noInverse, ⟨nofun, nofun⟩, fun t ht => by simp [ht.l0, ht.l2, h, Update.apply]⟩
    | some v => exact ⟨.res0 v, ⟨nofun, nofun⟩, fun t ht => by simp [ht.l0, ht.l2, h, Update.apply]⟩
  | modmul =>
    refine determined_modulus nofun (determined_res0 ⟨nofun, nofun⟩ fun t ht => ?_)
    simp [ht.l0, ht.l1, ht.l2]
  | montmul =>
    refine determined_check (fun t ht => by simp [ht.l2]) nofun nofun
      (determined_check (fun t ht => by simp [ht.l0, ht.l1, ht.l2]) nofun nofun
        (determined_res0 ⟨nofun, nofun⟩ fun t ht => ?_))
    simp [ht.l0, ht.l1, ht.l2, ht.cfg]
  | barrett =>
    refine determined_modulus nofun (determined_res0 ⟨nofun, nofun⟩ fun t ht => ?_)
    simp [State.wide, ht.l0, ht.l1, ht.l2, ht.cfg]
  | modpow =>
    refine determined_modulus nofun (determined_res0 ⟨nofun, nofun⟩ fun t ht => ?_)
    simp [ht.l0, ht.l1, ht.l2]
  | rsakey =>
    refine determined_check (fun t ht => by simp [ht.l0, ht.l1]) nofun nofun
      (determined_check (fun t ht => by simp [ht.l0, ht.l1, ht.cfg]) nofun nofun
        (determined_check (fun t ht => by simp [ht.l0, ht.l1, ht.l2]) nofun nofun
          ⟨.key (s.l0 * s.l1) s.l2 (modInvExists s.l2 (lambda s.l0 s.l1)), rfl, fun t ht => ?_⟩))
    simp [ht.l0, ht.l1, ht.l2, Update.apply]
  | rsaenc => exact determined_keyed ⟨nofun, nofun⟩ fun t ht => by simp [ht.l0, ht.keyE, ht.keyN]
  | rsadec => exact determined_keyed ⟨nofun, nofun⟩ fun t ht => by simp [ht.l0, ht.keyD rfl, ht.keyN]
  | keyclr => exact ⟨.noKey, rfl, fun _ _ => rfl⟩

/-- So does the completion of every latched word, an illegal one included (R40, R86). -/
theorem engineTurn_determined (s : State) :
    ∃ u : Update, u.Allowed (decode s.lcmd) ∧
      ∀ t, t.busy = true → t.lcmd = s.lcmd → s.SameInputs (decode s.lcmd) t → engineTurn t = .next (u.apply t) := by
  cases hd : decode s.lcmd with
  | ok i =>
    obtain ⟨u, hu, hexec⟩ := exec_determined i s
    exact ⟨u, hu, fun t htb htl ht => (engineTurn_of_decode htb (htl ▸ hd)).trans (hexec t ht)⟩
  | error e =>
    refine ⟨.error .illegalCmd, ⟨nofun, nofun⟩, fun t htb htl _ => ?_⟩
    simp [engineTurn, completion, execIllegal, htb, htl, hd, Update.apply]

/-- Settles O33: the update that the command makes, by its kind. -/
theorem completionWritesOnlyItsResults : Obligations.CompletionWritesOnlyItsResults := by
  intro i s
  obtain ⟨u, hu, hexec⟩ := exec_determined i s
  refine ⟨u.apply s, hexec s (.refl _ s), u.apply_busy s, u.apply_done s, u.apply_frame s, ?_⟩
  cases u with
  | error c =>
    exact ⟨fun _ => ⟨rfl, rfl⟩, fun _ => rfl, fun _ _ => ⟨rfl, rfl, rfl, rfl⟩,
      fun hi => absurd (congrArg _ hi) hu.2, fun _ => rfl⟩
  | res0 v =>
    obtain ⟨hkey, hclr⟩ := hu
    exact ⟨fun _ => ⟨rfl, rfl⟩, fun hi => absurd hi (not_or.mpr ⟨mt (congrArg _) hkey, mt (congrArg _) hclr⟩),
      fun _ _ => ⟨rfl, rfl, rfl, rfl⟩, fun hi => absurd (congrArg _ hi) hclr, fun he => absurd rfl he⟩
  | bezout g x y =>
    cases hu
    exact ⟨fun hi => absurd rfl hi, nofun, fun _ _ => ⟨rfl, rfl, rfl, rfl⟩, nofun, fun he => absurd rfl he⟩
  | key n e d =>
    cases hu
    exact ⟨fun _ => ⟨rfl, rfl⟩, fun _ => rfl, fun hi => absurd rfl hi, nofun, fun he => absurd rfl he⟩
  | noKey =>
    cases hu
    exact ⟨fun _ => ⟨rfl, rfl⟩, fun _ => rfl, fun _ hi => absurd rfl hi, fun _ => ⟨rfl, rfl, rfl, rfl⟩,
      fun he => absurd rfl he⟩

end Sys2Proof.Machine
end

section
/-! SUPPORT. KEY_D stays hidden (R32, R212), and a dropped CMD write beside the command in flight (R39, R207). -/

namespace Sys2Proof.Machine

/-! ### KEY_D -/

/-- `s` with KEY_D hidden: what two states that are `SameButKeyD` share. -/
def State.hideKeyD (s : State) : State := { s with keyD := 0 }

theorem State.sameButKeyD_iff {s t : State} : s.SameButKeyD t ↔ s.hideKeyD = t.hideKeyD := Iff.rfl

theorem State.sameInputs_hideKeyD {r : Except DecodeError Instr} (hr : r ≠ .ok .rsadec) (s : State) :
    s.SameInputs r s.hideKeyD :=
  ⟨rfl, rfl, rfl, rfl, rfl, rfl, rfl, fun h => absurd h hr⟩

theorem Update.hideKeyD_apply (u : Update) (s : State) : (u.apply s.hideKeyD).hideKeyD = (u.apply s).hideKeyD := by
  cases u <;> rfl

/-- An engine's turn that is no RSADEC shows the same, whatever KEY_D is. -/
theorem engineTurn_hideKeyD {s : State} (hs : ¬ (s.busy = true ∧ decode s.lcmd = .ok .rsadec)) :
    mapNext State.hideKeyD (engineTurn s.hideKeyD) = mapNext State.hideKeyD (engineTurn s) := by
  cases hb : s.busy with
  | false => rw [engineTurn_of_idle hb, engineTurn_of_idle (s := s.hideKeyD) hb]; rfl
  | true =>
    obtain ⟨u, -, hu⟩ := engineTurn_determined s
    rw [hu s hb rfl (.refl _ s), hu s.hideKeyD hb rfl (s.sameInputs_hideKeyD fun hd => hs ⟨hb, hd⟩)]
    exact congrArg Host.Outcome.next (u.hideKeyD_apply s)

/-- KEY_D has no address to read (R32). -/
theorem readReg_hideKeyD (r : Reg) (j : Nat) (s : State) : readReg r j s.hideKeyD = readReg r j s := by
  cases r <;> rfl

theorem writeCmd_hideKeyD (c : Word) (s : State) : s.hideKeyD.writeCmd c = (s.writeCmd c).hideKeyD := by
  cases hb : s.busy with
  | false => rw [writeCmd_of_idle c hb, writeCmd_of_idle (s := s.hideKeyD) c hb]; rfl
  | true => rw [writeCmd_of_busy c hb, writeCmd_of_busy (s := s.hideKeyD) c hb]; rfl

/-- No write reads or changes KEY_D (R32). -/
theorem writeReg_hideKeyD (r : Reg) (j : Nat) (v : Word) (s : State) :
    writeReg r j v s.hideKeyD = (writeReg r j v s).hideKeyD := by
  cases j with
  | zero =>
    cases r with
    | cmd => exact writeCmd_hideKeyD v s
    | _ => rfl
  | succ j => cases r <;> rfl

theorem hostAccess_hideKeyD (a : Access) (s : State) :
    hostAccess a s.hideKeyD = mapNext State.hideKeyD (hostAccess a s) := by
  cases a with
  | read addr bytes =>
    rw [hostAccess, hostAccess, busRead, readReg_hideKeyD, show s.hideKeyD.cfg = s.cfg from rfl]
    split <;> rfl
  | write addr bytes v =>
    rw [hostAccess, hostAccess, busWrite, writeReg_hideKeyD, show s.hideKeyD.cfg = s.cfg from rfl]
    split <;> rfl

theorem mapNext_hideKeyD_idem (r : Result) :
    mapNext State.hideKeyD (mapNext State.hideKeyD r) = mapNext State.hideKeyD r := by
  cases r <;> rfl

/-- A step that does not complete RSADEC shows the same, whatever KEY_D is. -/
theorem step_hideKeyD {s : State} (hs : ¬ s.CompletesRsadec) :
    mapNext State.hideKeyD (step s.hideKeyD) = mapNext State.hideKeyD (step s) := by
  cases hm : s.moves with
  | nil =>
    rw [step_nil hm, step_nil (s := s.hideKeyD) hm]
    exact engineTurn_hideKeyD fun ⟨hb, hd⟩ => hs ⟨hb, hd, .inl hm⟩
  | cons m ms =>
    rw [step_cons hm, step_cons (s := s.hideKeyD) hm]
    cases m with
    | engine =>
      exact engineTurn_hideKeyD (s := s.popMove) fun ⟨hb, hd⟩ => hs ⟨hb, hd, .inr (congrArg List.head? hm)⟩
    | access a =>
      exact (congrArg (mapNext State.hideKeyD) (hostAccess_hideKeyD a s.popMove)).trans (mapNext_hideKeyD_idem _)
    | reset => rfl

theorem mapNext_eq_next {f : State → State} {r : Result} {t : State} :
    mapNext f r = .next t ↔ ∃ s, r = .next s ∧ f s = t := by
  cases r <;> simp [mapNext]

theorem mapNext_eq_fault {f : State → State} {r : Result} {e : Fault} : mapNext f r = .fault e ↔ r = .fault e := by
  cases r <;> simp [mapNext]

/-- Settles O52: both states step as the one in which KEY_D is hidden. -/
theorem keyDIsNotRevealed : Obligations.KeyDIsNotRevealed := by
  intro s t hst hs
  rw [State.sameButKeyD_iff] at hst
  have ht : ¬ t.CompletesRsadec := fun h => hs (show s.hideKeyD.CompletesRsadec from hst ▸ h)
  have hstep : mapNext State.hideKeyD (step t) = mapNext State.hideKeyD (step s) := by
    rw [← step_hideKeyD ht, ← hst, step_hideKeyD hs]
  refine ⟨fun s' h => ?_, fun e h => ?_⟩
  · rw [h] at hstep
    obtain ⟨t', ht', hhide⟩ := mapNext_eq_next.mp hstep
    exact ⟨t', ht', State.sameButKeyD_iff.mpr hhide.symm⟩
  · rw [h] at hstep
    exact mapNext_eq_fault.mp hstep

/-! ### The command in flight and the port -/

theorem Update.apply_overrun (u : Update) (s : State) : u.apply s.overrun = (u.apply s).overrun := by
  cases u <;> rfl

/-- Settles O54: the dropped write sets OVR, which no completion reads or writes. -/
theorem droppedCommandLeavesTheRunningOne : Obligations.DroppedCommandLeavesTheRunningOne := by
  intro s t c hb h
  refine ⟨s.overrun, by rw [hostAccess_writeCmd, writeCmd_of_busy c hb], ?_⟩
  obtain ⟨u, -, hu⟩ := engineTurn_determined s
  obtain rfl : u.apply s = t := Host.Outcome.next.inj ((hu s hb rfl (.refl _ s)).symm.trans h)
  rw [hu s.overrun hb rfl ⟨rfl, rfl, rfl, rfl, rfl, rfl, rfl, fun _ => rfl⟩, u.apply_overrun]
  rfl

end Sys2Proof.Machine
end

section
/-! SUPPORT. An operand write bit by bit (R65), a command through the port (R39, R90), and that every command completes
(R240). -/

namespace Sys2Proof.Machine

/-! ### An operand write -/

/-- Taking out the slice between the weights `p` and `p * q` and putting `v` in its place. -/
theorem sub_slice_add (old v p q : Nat) :
    old - old / p % q * p + v * p = p * (q * (old / p / q) + v) + old % p := by
  have h : p * (q * (old / p / q) + old / p % q) + old % p = old := by
    rw [Nat.div_add_mod, Nat.div_add_mod]
  rw [Nat.mul_add] at h ⊢
  rw [Nat.mul_comm (old / p % q), Nat.mul_comm v]
  omega

/-- Settles O43: below, in and above the slice, by `sub_slice_add`. -/
theorem operandWriteIsItsSlice : Obligations.OperandWriteIsItsSlice := by
  intro w old j v hold
  refine ⟨withWord_lt hold j v, fun k hk => ?_⟩
  unfold withWord zext
  split
  · next hj =>
    rw [sub_slice_add, Nat.testBit_mod_two_pow, Nat.testBit_two_pow_mul_add _ (Nat.mod_lt _ (by positivity)),
      Nat.testBit_two_pow_mul_add _ v.isLt, decide_eq_true hk, Bool.true_and]
    by_cases hlow : k < 32 * j
    · rw [if_pos hlow, if_neg (by omega), Nat.testBit_mod_two_pow, decide_eq_true hlow, Bool.true_and]
    by_cases hmid : k - 32 * j < 32
    · rw [if_neg hlow, if_pos hmid, if_pos (by omega)]; rfl
    · rw [if_neg hlow, if_neg hmid, if_neg (by omega), Nat.testBit_div_two_pow, Nat.testBit_div_two_pow]
      congr 1; omega
  · next hj => rw [if_neg (by omega)]

/-! ### STATUS -/

/-- A bit of STATUS is a bit of its fields, laid side by side (R24). -/
theorem statusWord_getLsbD (s : State) (k : Nat) :
    (statusWord s).getLsbD k =
      (0#22 ++ BitVec.ofBool s.keyValid ++ BitVec.ofBool s.ovr ++ s.err.code ++ 0#2 ++ BitVec.ofBool s.done ++
        BitVec.ofBool s.busy).getLsbD k := rfl

theorem statusWord_busy (s : State) : (statusWord s).getLsbD 0 = s.busy := by
  rw [statusWord_getLsbD, BitVec.getLsbD_append]
  simp

theorem statusWord_err (s : State) : (statusWord s).extractLsb' 4 4 = s.err.code := by
  refine BitVec.eq_of_getLsbD_eq fun k hk => ?_
  rw [BitVec.getLsbD_extractLsb', statusWord_getLsbD, BitVec.getLsbD_append, if_neg (by omega), BitVec.getLsbD_append,
    if_neg (by omega), BitVec.getLsbD_append, if_neg (by omega), BitVec.getLsbD_append, if_pos (by omega),
    decide_eq_true hk, Bool.true_and]
  congr 1; omega

/-! ### CMD, then WAIT -/

/-- What a completed command has done, and what it does on every state with the same inputs. -/
theorem exec_next {i : Instr} {s t : State} (h : exec i s = .next t) :
    ∃ u : Update, u.Allowed (.ok i) ∧ t = u.apply s ∧
      ∀ s', s.SameInputs (.ok i) s' → exec i s' = .next (u.apply s') := by
  obtain ⟨u, hu, hexec⟩ := exec_determined i s
  exact ⟨u, hu, Host.Outcome.next.inj (h.symm.trans (hexec s (.refl _ s))), hexec⟩

/-- A completion leaves the block idle, and the parameters and what is pending alone (R29, R40). -/
theorem exec_leaves_idle {i : Instr} {s t : State} (h : exec i s = .next t) :
    t.cfg = s.cfg ∧ t.moves = s.moves ∧ t.busy = false := by
  obtain ⟨u, -, rfl, -⟩ := exec_next h
  exact ⟨u.apply_cfg s, u.apply_moves s, u.apply_busy s⟩

/-- `RD STATUS` takes one step and answers STATUS (R64, R90). -/
theorem step_rdStatus {s : State} {ms : List Move} (h : s.moves = rdWord s.cfg .status 0 :: ms) :
    step s = .next { s with moves := ms, responses := s.responses ++ [statusWord s] } := by
  rw [step_cons h, popMove_of_cons h]
  exact hostAccess_read { s with moves := ms } (off := 0x0600) (by decide) (by decide)

/-- Polls of STATUS change nothing but the host's answers (R69, R90). -/
theorem run_polls (k : Nat) (ms : List Move) (polls : Nat) (s : State)
    (h : s.moves = List.replicate polls (rdWord s.cfg .status 0) ++ ms) :
    Host.Core.run Sys2Proof.core (polls + k) s =
      Host.Core.run Sys2Proof.core k
        { s with moves := ms, responses := s.responses ++ List.replicate polls (statusWord s) } := by
  induction polls generalizing s with
  | zero =>
    rw [List.replicate_zero, List.nil_append] at h
    rw [Nat.zero_add, List.replicate_zero, List.append_nil, ← h]
  | succ polls ih =>
    rw [Nat.add_right_comm, run_succ _ (step_rdStatus h), ih _ rfl, List.append_assoc, List.replicate_succ]
    rfl

/-- `CMD MNEMONIC` on an idle block takes one step, which latches the operands (R39, R90). -/
theorem step_cmdLine {s : State} {i : Instr} {ms : List Move} (hb : s.busy = false)
    (h : s.moves = cmdLine s.cfg i :: ms) : step s = .next { s.accept (encode i) with moves := ms } := by
  rw [step_cons h, popMove_of_cons h]
  exact (hostAccess_writeCmd { s with moves := ms } (encode i)).trans
    (congrArg Host.Outcome.next (writeCmd_of_idle (s := { s with moves := ms }) (encode i) hb))

/-- A completion neither reads nor writes what is pending (R40). -/
theorem exec_withMoves {i : Instr} {s t : State} (h : exec i s = .next t) (ms : List Move) :
    exec i { s with moves := ms } = .next { t with moves := ms } := by
  obtain ⟨u, -, rfl, hexec⟩ := exec_next h
  rw [hexec { s with moves := ms } ⟨rfl, rfl, rfl, rfl, rfl, rfl, rfl, fun _ => rfl⟩]
  cases u <;> rfl

/-- What a command that has been latched leaves in two steps: its completion and a read of STATUS (R40, R64, R90). -/
theorem run_completion_rdStatus {i : Instr} {s t : State} {rest : List Move} (hb : s.busy = true)
    (hl : s.lcmd = encode i) (hm : s.moves = .engine :: rdWord s.cfg .status 0 :: rest)
    (h : exec i { s with moves := rest } = .next t) :
    Host.Core.run Sys2Proof.core 2 s = .next { t with responses := t.responses ++ [statusWord t] } := by
  obtain ⟨hcfg, hmoves, -⟩ : t.cfg = s.cfg ∧ t.moves = rest ∧ t.busy = false := exec_leaves_idle h
  rw [← hcfg, ← hmoves] at hm
  have hturn : step s = .next { t with moves := rdWord t.cfg .status 0 :: t.moves } := by
    rw [step_cons hm, popMove_of_cons hm]
    exact (engineTurn_of_decode (s := { s with moves := rdWord t.cfg .status 0 :: t.moves }) hb
      (hl ▸ decode_encode i)).trans (exec_withMoves h _)
  have hread := step_rdStatus (s := { t with moves := rdWord t.cfg .status 0 :: t.moves }) rfl
  rw [run_succ 1 hturn, run_succ 0 hread, run_zero]
  rfl

/-- Settles O46: the acceptance, the polls, the completion and the last read, one after the other. -/
theorem commandThenWait : Obligations.CommandThenWait := by
  intro s t i polls rest hb hm h
  obtain ⟨-, -, hbusy⟩ := exec_leaves_idle h
  refine ⟨?_, statusWord_busy _, (statusWord_busy t).trans hbusy, statusWord_err t⟩
  rw [waitTrace, List.append_assoc] at hm
  rw [run_succ (polls + 2) (step_cmdLine hb hm), run_polls 2 _ polls _ rfl]
  exact run_completion_rdStatus rfl rfl rfl h

/-! ### Every command completes -/

/-- The engine's turn leaves the block idle, and what is pending alone (R40). -/
theorem engineTurn_next (s : State) :
    ∃ t, engineTurn s = .next t ∧ t.busy = false ∧ t.cfg = s.cfg ∧ t.moves = s.moves := by
  cases hb : s.busy with
  | false => exact ⟨s, engineTurn_of_idle hb, hb, rfl, rfl⟩
  | true =>
    obtain ⟨u, -, hu⟩ := engineTurn_determined s
    exact ⟨u.apply s, hu s hb rfl (.refl _ s), u.apply_busy s, u.apply_cfg s, u.apply_moves s⟩

theorem writeCmd_moves (c : Word) (s : State) : (s.writeCmd c).moves = s.moves := by
  obtain ⟨-, he⟩ | ⟨-, he⟩ := writeCmd_cases c s <;> rw [he]
  · rw [State.overrun_moves]
  · rw [State.accept_moves]

theorem writeReg_moves (r : Reg) (j : Nat) (v : Word) (s : State) : (writeReg r j v s).moves = s.moves := by
  obtain he | ⟨-, -, he⟩ | ⟨-, -, he⟩ | ⟨-, -, he⟩ | ⟨-, he⟩ | ⟨-, he⟩ | ⟨-, he⟩ := writeReg_cases r j v s <;> rw [he]
  · rw [State.writeCtrl_moves]
  · exact writeCmd_moves v s
  · rw [State.writeStatus_moves]

theorem State.supports_of_cfg {s t : State} (h : t.cfg = s.cfg) {m : Move} (hm : s.Supports m) : t.Supports m := by
  cases m with
  | access a => cases a <;> exact (congrArg (supported · _ _) h).trans hm
  | _ => trivial

/-- A supported move takes one step (R66), which leaves the other moves and the parameters alone. -/
theorem step_supported {s : State} {m : Move} {ms : List Move} (h : s.moves = m :: ms) (hm : s.Supports m) :
    ∃ t, step s = .next t ∧ t.cfg = s.cfg ∧ t.moves = ms := by
  rw [step_cons h, popMove_of_cons h]
  cases m with
  | engine =>
    obtain ⟨t, ht, -, hcfg, hmoves⟩ := engineTurn_next { s with moves := ms }
    exact ⟨t, ht, hcfg, hmoves⟩
  | access a =>
    cases a with
    | read addr bytes => exact ⟨_, if_pos hm, rfl, rfl⟩
    | write addr bytes v => exact ⟨_, if_pos hm, writeReg_cfg _ _ _ _, writeReg_moves _ _ _ _⟩
  | reset => exact ⟨_, rfl, rfl, rfl⟩

/-- Settles O59, by induction on the pending moves: each takes a step, and the engine's turn comes last. -/
theorem everyCommandCompletesInTheEnd : Obligations.EveryCommandCompletesInTheEnd := by
  intro s hs
  generalize hm : s.moves = ms at hs
  induction ms generalizing s with
  | nil =>
    obtain ⟨t, ht, hbusy, -, hmoves⟩ := engineTurn_next s
    exact ⟨t, by rw [List.length_nil, run_succ 0 ((step_nil hm).trans ht), run_zero], hbusy, hmoves.trans hm⟩
  | cons m ms ih =>
    obtain ⟨hhead, hrest⟩ := List.forall_mem_cons.mp hs
    obtain ⟨t, ht, hcfg, hmoves⟩ := step_supported hm hhead
    rw [List.length_cons, run_succ _ ht]
    exact ih t hmoves fun m hm => State.supports_of_cfg hcfg (hrest m hm)

end Sys2Proof.Machine
end

section
/-! SUPPORT. What one step can change, and who changes it (R20, R24, R34, R73). -/

namespace Sys2Proof.Machine

/-- The next step is the engine's turn: it is the next move, or nothing is pending (R72, R240; log 4). -/
abbrev State.EngineNext (s : State) : Prop := s.moves = [] ∨ s.moves.head? = some .engine

/-- The next step is a host write of `v` at address `a` (R60). -/
abbrev State.WriteNext (s : State) (a : Nat) (v : Word) : Prop := s.moves.head? = some (.access (.write a 4 v))

/-- Everything a step can do that stops for no fault, with what was next (R39, R40, R64, R65, R72, R230). -/
inductive StepEffect (s : State) : State → Prop where
  | unchanged : StepEffect s s.popMove
  | completion (u : Update) (hnext : s.EngineNext) (hbusy : s.busy = true) (hu : u.Allowed (decode s.lcmd)) :
      StepEffect s (u.apply s.popMove)
  | reset (hnext : s.moves.head? = some .reset) : StepEffect s s.popMove.resetBlock
  | read (v : Word) : StepEffect s (s.popMove.respond v)
  | writeCtrl (v : Word) : StepEffect s (s.popMove.writeCtrl v)
  | overrun (c : Word) (hnext : s.WriteNext (s.cfg.base + 0x0400) c) (hbusy : s.busy = true) :
      StepEffect s s.popMove.overrun
  | accept (c : Word) (hnext : s.WriteNext (s.cfg.base + 0x0400) c) (hbusy : s.busy = false) :
      StepEffect s (s.popMove.accept c)
  | writeStatus (v : Word) (hnext : s.WriteNext (s.cfg.base + 0x0600) v) : StepEffect s (s.popMove.writeStatus v)
  | writeOperand (addr : Nat) (v : Word) (a b c : Nat) (hnext : s.WriteNext addr v)
      (hslot : 4 ≤ (addr - s.cfg.base) / 0x200 ∧ (addr - s.cfg.base) / 0x200 ≤ 6) :
      StepEffect s (s.popMove.withOperands a b c)

theorem engineTurn_effect {s t : State} (hnext : s.EngineNext) (h : engineTurn s.popMove = .next t) :
    StepEffect s t := by
  cases hb : s.busy with
  | false => cases (engineTurn_of_idle (s := s.popMove) hb).symm.trans h; exact .unchanged
  | true =>
    obtain ⟨u, hu, hturn⟩ := engineTurn_determined s.popMove
    cases (hturn s.popMove hb rfl (.refl _ _)).symm.trans h
    exact .completion u hnext hb hu

/-- Each register but the reserved ones has one slot (R20). -/
theorem slot_regOfSlot : ∀ {k : Nat}, regOfSlot k ≠ .reserved → (regOfSlot k).slot = k
  | 0, _ | 1, _ | 2, _ | 3, _ | 4, _ | 5, _ | 6, _ | 7, _ | 8, _ | 9, _ | 10, _ | 11, _ => rfl
  | _ + 12, h => absurd rfl h

/-- A register's word has one supported address (R61). -/
theorem addr_eq_wordAddr {c : Config} {addr j : Nat} {r : Reg} (hs : supported c addr 4 = true)
    (hr : regOfSlot (slotOf (addr - c.base)) = r) (hj : wordIndex (addr - c.base) = j) (hne : r ≠ .reserved) :
    addr = wordAddr c r j := by
  obtain ⟨-, hle, hlt, h4⟩ := (supported_iff _ _ _).mp hs
  have hslot := slot_regOfSlot (hr ▸ hne)
  rw [hr] at hslot
  unfold slotOf at hslot
  unfold wordIndex at hj
  unfold wordAddr
  omega

/-- OP0 to OP2 are in slots 4 to 6 (R20). -/
theorem slotOf_operand {off : Nat} {r : Reg} (hr : regOfSlot (slotOf off) = r) (hop : r = .op0 ∨ r = .op1 ∨ r = .op2) :
    4 ≤ off / 0x200 ∧ off / 0x200 ≤ 6 := by
  have hslot : r.slot = off / 0x200 := hr ▸ slot_regOfSlot (by rw [hr]; rintro rfl; simp at hop)
  rw [← hslot]
  obtain rfl | rfl | rfl := hop <;> decide

theorem write_effect {s : State} {addr : Nat} {v : Word} (hnext : s.WriteNext addr v)
    (hs : supported s.cfg addr 4 = true) : StepEffect s (busWrite (addr - s.cfg.base) v s.popMove) := by
  unfold busWrite
  obtain he | ⟨-, -, he⟩ | ⟨hr, hj, he⟩ | ⟨hr, hj, he⟩ | ⟨hr, he⟩ | ⟨hr, he⟩ | ⟨hr, he⟩ :=
    writeReg_cases (regOfSlot (slotOf (addr - s.cfg.base))) (wordIndex (addr - s.cfg.base)) v s.popMove <;> rw [he]
  · exact .unchanged
  · exact .writeCtrl v
  · obtain rfl := addr_eq_wordAddr hs hr hj nofun
    obtain ⟨hb, he⟩ | ⟨hb, he⟩ := writeCmd_cases v s.popMove <;> rw [he]
    · exact .overrun v hnext hb
    · exact .accept v hnext hb
  · obtain rfl := addr_eq_wordAddr hs hr hj nofun
    exact .writeStatus v hnext
  · exact .writeOperand addr v _ _ _ hnext (slotOf_operand hr (.inl rfl))
  · exact .writeOperand addr v _ _ _ hnext (slotOf_operand hr (.inr (.inl rfl)))
  · exact .writeOperand addr v _ _ _ hnext (slotOf_operand hr (.inr (.inr rfl)))

/-- What a step can do, once for the properties below. -/
theorem step_effect {s t : State} (h : step s = .next t) : StepEffect s t := by
  obtain ⟨hm, h⟩ | ⟨ms, hm, h⟩ | ⟨a, ms, hm, h⟩ | ⟨ms, hm, rfl⟩ := step_cases h
  · exact engineTurn_effect (.inl hm) ((popMove_of_nil hm).symm ▸ h)
  · exact engineTurn_effect (.inr (congrArg List.head? hm)) h
  · obtain ⟨addr, rfl, -, rfl⟩ | ⟨addr, v, rfl, hs, rfl⟩ := hostAccess_next h
    · exact .read _
    · exact write_effect (congrArg List.head? hm) hs
  · exact .reset (congrArg List.head? hm)

section
variable (s : State) (a b c : Nat)

@[simp] theorem State.withOperands_busy : (s.withOperands a b c).busy = s.busy := rfl
@[simp] theorem State.withOperands_done : (s.withOperands a b c).done = s.done := rfl
@[simp] theorem State.withOperands_ovr : (s.withOperands a b c).ovr = s.ovr := rfl
@[simp] theorem State.withOperands_keyValid : (s.withOperands a b c).keyValid = s.keyValid := rfl

end

/-- Settles O50: only an operand write reaches OP0 to OP2, and only a completion without error RES0 to RES2. -/
theorem operandsAndResultsHaveOneWriter : Obligations.OperandsAndResultsHaveOneWriter := by
  intro s t h hreset
  refine ⟨fun hop => ?_, fun hres => ?_⟩
  · cases step_effect h with
    | reset hnext => exact absurd hnext hreset
    | writeOperand addr v a b c hnext hslot => exact ⟨addr, v, hnext, hslot⟩
    | completion u => exact absurd ⟨u.apply_op0 _, u.apply_op1 _, u.apply_op2 _⟩ hop
    | _ => exact absurd ⟨rfl, rfl, rfl⟩ hop
  · cases step_effect h with
    | reset hnext => exact absurd hnext hreset
    | completion u hnext hbusy =>
      refine ⟨hnext, hbusy, u.apply_busy _, ?_⟩
      cases u with
      | error c => exact absurd ⟨rfl, rfl, rfl⟩ hres
      | _ => rfl
    | _ => exact absurd ⟨rfl, rfl, rfl⟩ hres

/-- Settles O51: only the updates of RSAKEY and KEYCLR reach the key. -/
theorem keyChangesOnlyByKeyCommands : Obligations.KeyChangesOnlyByKeyCommands := by
  intro s t h hkey
  cases step_effect h with
  | reset hnext => exact .inl hnext
  | completion u hnext hbusy hu =>
    refine .inr ⟨hnext, hbusy, ?_⟩
    cases u with
    | key n e d => exact ⟨.inl hu, rfl⟩
    | noKey => exact ⟨.inr hu, rfl⟩
    | _ => exact absurd ⟨rfl, rfl, rfl, rfl⟩ hkey
  | _ => exact absurd ⟨rfl, rfl, rfl, rfl⟩ hkey

/-- A flag that a STATUS write cleared had its bit set in the written word (R25). -/
theorem bit_of_cleared {b : Bool} {v : Word} {k : Nat} (hb : b = true) (h : (b && !v.getLsbD k) = false) :
    v.toNat / 2 ^ k % 2 = 1 := by
  by_contra hbit
  rw [and_not_getLsbD, if_neg hbit, hb] at h
  cases h

/-- Settles O53: each flag's changes, by what the step did. -/
theorem flagsChangeOnlyAsListed : Obligations.FlagsChangeOnlyAsListed := by
  intro s t h
  have heff := step_effect h
  refine ⟨fun hs ht => ?_, fun hs ht => ?_, fun hs ht => ?_, fun hs ht => ?_, fun hs ht => ?_, fun hs ht => ?_,
    fun hs ht => ?_, fun hs ht => ?_⟩
  · cases heff with -- BUSY rises
    | accept c hnext => exact ⟨c, hnext, rfl⟩
    | _ => simp [hs] at ht
  · cases heff with -- BUSY falls
    | reset hnext => exact .inl hnext
    | completion u hnext => exact .inr ⟨hnext, u.apply_done _⟩
    | _ => simp [hs] at ht
  · cases heff with -- DONE rises
    | completion u hnext hbusy => exact ⟨hbusy, u.apply_busy _⟩
    | _ => simp [hs] at ht
  · cases heff with -- DONE falls
    | reset hnext => exact .inl hnext
    | accept c hnext hbusy => exact .inr (.inl ⟨c, hnext, hbusy⟩)
    | writeStatus v hnext => exact .inr (.inr ⟨v, hnext, bit_of_cleared (k := 1) hs ht⟩)
    | _ => simp [hs] at ht
  · cases heff with -- OVR rises
    | overrun c hnext hbusy => exact ⟨hbusy, c, hnext⟩
    | _ => simp [hs] at ht
  · cases heff with -- OVR falls
    | reset hnext => exact .inl hnext
    | writeStatus v hnext => exact .inr ⟨v, hnext, bit_of_cleared (k := 8) hs ht⟩
    | _ => simp [hs] at ht
  · cases heff with -- KEY_VALID rises
    | completion u hnext hbusy hu =>
      cases u with
      | key n e d => exact ⟨hnext, hbusy, hu, rfl, rfl⟩
      | noKey => cases ht
      | _ => exact absurd (hs.symm.trans ht) nofun
    | _ => simp [hs] at ht
  · cases heff with -- KEY_VALID falls
    | reset hnext => exact .inl hnext
    | completion u hnext hbusy hu =>
      cases u with
      | key n e d => cases ht
      | noKey => exact .inr ⟨hnext, hbusy, hu, rfl, rfl⟩
      | _ => exact absurd (hs.symm.trans ht) nofun
    | _ => simp [hs] at ht

end Sys2Proof.Machine
end

section
/-! SUPPORT. The bus word by word (spec/20_memory.md R64 to R69): which accesses are answered, what each word reads and
what a write to it does; operand registers written word by word (R62, R90). -/

namespace Sys2Proof.Machine

/-! ### Which accesses are answered -/

theorem hostAccess_unsupportedRead {s : State} {addr bytes : Nat} (h : supported s.cfg addr bytes = false) :
    hostAccess (.read addr bytes) s = .fault (.busError addr bytes) :=
  if_neg (ne_true_of_eq_false h)

theorem hostAccess_unsupportedWrite {s : State} {addr bytes : Nat} (h : supported s.cfg addr bytes = false) (v : Word) :
    hostAccess (.write addr bytes v) s = .fault (.busError addr bytes) :=
  if_neg (ne_true_of_eq_false h)

/-- Settles O47: the two branches of an access, by `supported_iff`. -/
theorem unsupportedAccessFaults : Obligations.UnsupportedAccessFaults := by
  intro s addr bytes v
  rw [← supported_iff]
  refine ⟨fun h => ?_, fun h => ⟨⟨_, if_pos h⟩, ⟨_, if_pos h⟩⟩⟩
  have hs := eq_false_of_ne_true h
  exact ⟨hostAccess_unsupportedRead hs, hostAccess_unsupportedWrite hs v⟩

/-- Settles O48: a supported move is answered, and so is the engine's turn; what is left is an unsupported access. -/
theorem onlyUnsupportedAccessesStop : Obligations.OnlyUnsupportedAccessesStop := by
  intro s
  cases hm : s.moves with
  | nil =>
    obtain ⟨t, ht, -⟩ := engineTurn_next s
    exact .inl ⟨t, (step_nil hm).trans ht⟩
  | cons m ms =>
    by_cases hs : s.Supports m
    · obtain ⟨t, ht, -⟩ := step_supported hm hs
      exact .inl ⟨t, ht⟩
    · rw [step_cons hm]
      cases m with
      | engine => exact absurd trivial hs
      | reset => exact absurd trivial hs
      | access a =>
        cases a with
        | read addr bytes =>
          have hs := eq_false_of_ne_true hs
          exact .inr ⟨addr, bytes, ms, hostAccess_unsupportedRead (s := s.popMove) hs, hs, .inl rfl⟩
        | write addr bytes v =>
          have hs := eq_false_of_ne_true hs
          exact .inr ⟨addr, bytes, ms, hostAccess_unsupportedWrite (s := s.popMove) hs v, hs, .inr ⟨v, rfl⟩⟩

/-- Settles O41: the old state with one answer more. -/
theorem readsAnswerTheHost : Obligations.ReadsAnswerTheHost :=
  fun s _ hlt h4 => hostAccess_read s hlt h4

/-! ### What a write to each word does -/

/-- From slot 7 on, every register is read-only or reserved (R20, R65). -/
theorem writeReg_readOnlySlot {k : Nat} (hk : 7 ≤ k) (j : Nat) (v : Word) (s : State) :
    writeReg (regOfSlot k) j v s = s := by
  obtain ⟨k, rfl⟩ := Nat.exists_eq_add_of_le' hk
  match k with
  | 0 | 1 | 2 | 3 | 4 | _ + 5 => rfl

theorem writeCtrl_eq (v : Word) (s : State) : s.writeCtrl v = { s with ie := decide (v.toNat % 2 = 1) } := by
  rw [State.writeCtrl, BitVec.getLsbD, Nat.testBit_zero]

/-- Settles O42: each slot's word is a word of its register. -/
theorem busWriteEffects : Obligations.BusWriteEffects := by
  intro s v j hj
  refine ⟨?_, busWrite_wordOffset (k := 2) hj v s, busWrite_wordOffset (k := 3) hj v s, fun new hnew => ?_, ?_,
    fun off hoff => writeReg_readOnlySlot (by unfold slotOf; omega) _ v s, fun off => hostAccess_write s v⟩
  · rw [← writeCtrl_eq]
    exact busWrite_wordOffset (k := 1) hj v s
  · obtain rfl : new = fun old => withWord s.width old j v := funext hnew
    exact ⟨busWrite_wordOffset (k := 4) hj v s, busWrite_wordOffset (k := 5) hj v s,
      busWrite_wordOffset (k := 6) hj v s⟩
  · have h := busWrite_wordOffset (k := 0) hj v s
    rwa [Nat.zero_mul, Nat.zero_add] at h

/-! ### What each word reads -/

theorem busRead_wordOffset {k j : Nat} (hj : j < 128) (s : State) :
    busRead (k * 0x200 + 4 * j) s = readReg (regOfSlot k) j s := by
  rw [busRead, slotOf_wordOffset hj, wordIndex_wordOffset hj]

/-- From slot 12 on, every word reads 0 (R67). -/
theorem readReg_reservedSlot {k : Nat} (hk : 12 ≤ k) (j : Nat) (s : State) : readReg (regOfSlot k) j s = 0 := by
  obtain ⟨k, rfl⟩ := Nat.exists_eq_add_of_le' hk
  rfl

theorem wordOf_toNat (v j : Nat) : (wordOf v j).toNat = v / 2 ^ (32 * j) % 2 ^ 32 := BitVec.toNat_ofNat _ _

theorem signedWordOf_toNat (i : Int) (j : Nat) :
    ((signedWordOf i j).toNat : Int) = i / 2 ^ (32 * j) % 2 ^ 32 := by
  rw [signedWordOf, BitVec.toNat_ofInt, Int.toNat_of_nonneg (Int.emod_nonneg _ (by decide))]
  rfl

/-- Fields laid side by side, as a number. -/
theorem toNat_append_eq_add {m n : Nat} (x : BitVec m) (y : BitVec n) :
    (x ++ y).toNat = 2 ^ n * x.toNat + y.toNat := by
  rw [BitVec.toNat_append, ← Nat.shiftLeft_add_eq_or_of_lt y.isLt, Nat.shiftLeft_eq, Nat.mul_comm]

theorem idWord_toNat (c : Config) : (idWord c).toNat = 0x4D4D * 2 ^ 16 + 1 * 2 ^ 12 + c.width % 2 ^ 12 := by
  rw [idWord, toNat_append_eq_add, toNat_append_eq_add, BitVec.toNat_ofNat]
  rfl

theorem ctrlWord_toNat (s : State) : (ctrlWord s).toNat = s.ie.toNat := by
  rw [ctrlWord, toNat_append_eq_add, BitVec.toNat_ofBool, BitVec.toNat_ofNat, Nat.zero_mod, Nat.mul_zero, Nat.zero_add]

theorem statusWord_toNat (s : State) :
    (statusWord s).toNat =
      s.busy.toNat + 2 * s.done.toNat + 16 * s.err.code.toNat + 256 * s.ovr.toNat + 512 * s.keyValid.toNat := by
  simp only [statusWord, toNat_append_eq_add, BitVec.toNat_ofBool, BitVec.toNat_ofNat]
  omega

/-- A register of which only word 0 shows anything (R64). -/
theorem toNat_word0 {w : Word} {n j : Nat} (h : w.toNat = n) :
    (if j = 0 then w else 0).toNat = if j = 0 then n else 0 := by
  rw [apply_ite BitVec.toNat, h]
  rfl

/-- Settles O40: each slot's word is a word of its register, and a read changes only the host's answers. -/
theorem busReadValues : Obligations.BusReadValues := by
  refine ⟨fun s j hj => ?_, fun s off hoff => readReg_reservedSlot (by unfold slotOf; omega) _ s,
    fun s off hlt h4 => ⟨_, hostAccess_read s hlt h4, rfl⟩, rfl, rfl, rfl, rfl, rfl, rfl, rfl⟩
  have hread (k : Nat) : busRead (k * 0x200 + 4 * j) s = readReg (regOfSlot k) j s := busRead_wordOffset hj s
  have hid := hread 0
  rw [Nat.zero_mul, Nat.zero_add] at hid
  exact ⟨hid ▸ toNat_word0 (idWord_toNat s.cfg), hread 1 ▸ toNat_word0 (ctrlWord_toNat s),
    congrArg BitVec.toNat (hread 2), hread 3 ▸ toNat_word0 (statusWord_toNat s),
    hread 4 ▸ wordOf_toNat _ j, hread 5 ▸ wordOf_toNat _ j, hread 6 ▸ wordOf_toNat _ j, hread 7 ▸ wordOf_toNat _ j,
    hread 8 ▸ signedWordOf_toNat _ j, hread 9 ▸ signedWordOf_toNat _ j,
    hread 10 ▸ wordOf_toNat _ j, hread 11 ▸ wordOf_toNat _ j⟩

/-! ### An operand register as a unit -/

/-- OP0, OP1 or OP2 (R26). -/
def Reg.IsOperand (r : Reg) : Prop := r = .op0 ∨ r = .op1 ∨ r = .op2

namespace State

/-- What an operand register holds; 0 stands for any other register. -/
def operand (s : State) : Reg → Nat
  | .op0 => s.op0
  | .op1 => s.op1
  | .op2 => s.op2
  | _    => 0

/-- The state with `x` in an operand register; any other register is left as it is. -/
def setOperand (s : State) (r : Reg) (x : Nat) : State :=
  match r with
  | .op0 => { s with op0 := x }
  | .op1 => { s with op1 := x }
  | .op2 => { s with op2 := x }
  | _    => s

@[simp] theorem setOperand_cfg (s : State) (r : Reg) (x : Nat) : (s.setOperand r x).cfg = s.cfg := by
  cases r <;> rfl

@[simp] theorem setOperand_setOperand (s : State) (r : Reg) (x y : Nat) :
    (s.setOperand r x).setOperand r y = s.setOperand r y := by
  cases r <;> rfl

@[simp] theorem setOperand_moves (s : State) (r : Reg) (x : Nat) : (s.setOperand r x).moves = s.moves := by
  cases r <;> rfl

theorem setOperand_withMoves (s : State) (r : Reg) (x : Nat) (ms : List Move) :
    { s.setOperand r x with moves := ms } = { s with moves := ms }.setOperand r x := by
  cases r <;> rfl

theorem setOperand_operand (s : State) (r : Reg) : s.setOperand r (s.operand r) = s := by
  cases r <;> rfl

theorem operand_setOperand (s : State) {r : Reg} (hr : r.IsOperand) (x : Nat) :
    (s.setOperand r x).operand r = x := by
  obtain rfl | rfl | rfl := hr <;> rfl

theorem InRange.operand_lt {s : State} (hs : s.InRange) {r : Reg} (hr : r.IsOperand) :
    s.operand r < 2 ^ s.width := by
  obtain ⟨h0, h1, h2⟩ := hs.operands_lt
  obtain rfl | rfl | rfl := hr
  · exact h0
  · exact h1
  · exact h2

end State

theorem readReg_operand {r : Reg} (hr : r.IsOperand) (j : Nat) (s : State) :
    readReg r j s = wordOf (s.operand r) j := by
  obtain rfl | rfl | rfl := hr <;> rfl

theorem writeReg_operand {r : Reg} (hr : r.IsOperand) (j : Nat) (v : Word) (s : State) :
    writeReg r j v s = s.setOperand r (withWord s.width (s.operand r) j v) := by
  obtain rfl | rfl | rfl := hr <;> rfl

/-- Slots 4 to 6 hold the operand registers (R20). -/
theorem isOperand_regOfSlot {k : Nat} (hk : 4 ≤ k) (hk' : k ≤ 6) : (regOfSlot k).IsOperand := by
  obtain rfl | rfl | rfl : k = 4 ∨ k = 5 ∨ k = 6 := by omega
  · exact .inl rfl
  · exact .inr (.inl rfl)
  · exact .inr (.inr rfl)

/-! ### A written operand word by its bits -/

/-- `operandWriteIsItsSlice` for every bit, those at and above W included (R26, R65). -/
theorem testBit_withWord {w old : Nat} (hold : old < 2 ^ w) (j : Nat) (v : Word) (k : Nat) :
    (withWord w old j v).testBit k =
      (decide (k < w) && if 32 * j ≤ k ∧ k < 32 * j + 32 then v.getLsbD (k - 32 * j) else old.testBit k) := by
  obtain ⟨hlt, hbits⟩ := operandWriteIsItsSlice w old j v hold
  by_cases hk : k < w
  · rw [hbits k hk, decide_eq_true hk, Bool.true_and]
  · rw [decide_eq_false hk, Bool.false_and]
    exact Nat.testBit_eq_false_of_lt (hlt.trans_le (Nat.pow_le_pow_right (by decide) (by omega)))

theorem withWord_idem {w old : Nat} (hold : old < 2 ^ w) (j : Nat) (v : Word) :
    withWord w (withWord w old j v) j v = withWord w old j v := by
  refine Nat.eq_of_testBit_eq fun k => ?_
  rw [testBit_withWord (withWord_lt hold j v), testBit_withWord hold]
  by_cases hslice : 32 * j ≤ k ∧ k < 32 * j + 32
  · rw [if_pos hslice, if_pos hslice]
  · rw [if_neg hslice, if_neg hslice, ← Bool.and_assoc, Bool.and_self]

theorem wordOf_getLsbD (v j k : Nat) : (wordOf v j).getLsbD k = (decide (k < 32) && v.testBit (k + 32 * j)) := by
  rw [BitVec.getLsbD, wordOf_toNat, Nat.testBit_mod_two_pow, Nat.testBit_div_two_pow]

/-- A word that was written reads back cut to the bits below W (R65). -/
theorem wordOf_withWord {w old : Nat} (hold : old < 2 ^ w) (j : Nat) (v : Word) :
    (wordOf (withWord w old j v) j).toNat = v.toNat % 2 ^ (w - 32 * j) := by
  refine Nat.eq_of_testBit_eq fun k => ?_
  rw [← BitVec.getLsbD, wordOf_getLsbD, testBit_withWord hold, Nat.testBit_mod_two_pow, ← BitVec.getLsbD]
  by_cases hk : k < 32
  · rw [decide_eq_true hk, Bool.true_and, if_pos (by omega), Nat.add_sub_cancel,
      decide_eq_decide.mpr (show k + 32 * j < w ↔ k < w - 32 * j by omega)]
  · rw [decide_eq_false hk, Bool.false_and, BitVec.getLsbD_of_ge v k (by omega), Bool.and_false]

/-- CTRL reads back the bit that was written (R22, R69). -/
theorem busRead_ctrl_writeCtrl (v : Word) (s : State) :
    (busRead 0x0200 (busWrite 0x0200 v s)).toNat = v.toNat % 2 := by
  rw [show busWrite 0x0200 v s = s.writeCtrl v from rfl, writeCtrl_eq]
  refine (ctrlWord_toNat _).trans ?_
  obtain h | h := Nat.mod_two_eq_zero_or_one v.toNat <;> simp [h]

/-- Settles O44, by `wordOf_withWord` and `withWord_idem`. -/
theorem readAfterWrite : Obligations.ReadAfterWrite := by
  intro s v j k hs hj hk hk'
  have hr := isOperand_regOfSlot hk hk'
  have hold := hs.operand_lt hr
  simp only [busWrite_wordOffset hj, busRead_wordOffset hj, writeReg_operand hr, readReg_operand hr]
  refine ⟨?_, ?_, busRead_ctrl_writeCtrl v s⟩
  · rw [State.operand_setOperand s hr, wordOf_withWord hold]
  · rw [State.operand_setOperand s hr, State.setOperand_setOperand, State.width, State.setOperand_cfg,
      withWord_idem hold]

/-! ### A wide operand, word by word -/

/-- A W-bit register that held `old`, after its words `js` have been written with those of `v`, in this order (R65). -/
def writeWords (w v old : Nat) (js : List Nat) : Nat :=
  js.foldl (fun x j => withWord w x j (wordOf v j)) old

theorem writeWords_range_succ (w v old n : Nat) :
    writeWords w v old (List.range (n + 1)) = withWord w (writeWords w v old (List.range n)) n (wordOf v n) := by
  rw [writeWords, List.range_succ, List.foldl_append]
  rfl

/-- After words 0 to `n - 1` the bits below `32 * n` are those of `v`, and the others the old ones (R62, R65). -/
theorem writeWords_range_bits {w old : Nat} (v n : Nat) (hold : old < 2 ^ w) :
    writeWords w v old (List.range n) < 2 ^ w ∧
    ∀ k, k < w → (writeWords w v old (List.range n)).testBit k =
      if k < 32 * n then v.testBit k else old.testBit k := by
  induction n with
  | zero => exact ⟨hold, fun k _ => rfl⟩
  | succ n ih =>
    obtain ⟨hlt, hbits⟩ := ih
    rw [writeWords_range_succ]
    refine ⟨withWord_lt hlt n _, fun k hk => ?_⟩
    rw [testBit_withWord hlt, decide_eq_true hk, Bool.true_and, hbits k hk]
    by_cases hlow : k < 32 * n
    · rw [if_neg (by omega), if_pos hlow, if_pos (by omega)]
    by_cases hmid : k < 32 * n + 32
    · rw [if_pos (by omega), if_pos (by omega), wordOf_getLsbD, decide_eq_true (by omega), Bool.true_and,
        Nat.sub_add_cancel (by omega)]
    · rw [if_neg (by omega), if_neg hlow, if_neg (by omega)]

/-- Words that cover the register load it whole (R62). -/
theorem writeWords_range_eq {w v old n : Nat} (hold : old < 2 ^ w) (hv : v < 2 ^ w) (hn : w ≤ 32 * n) :
    writeWords w v old (List.range n) = v := by
  obtain ⟨hlt, hbits⟩ := writeWords_range_bits v n hold
  refine Nat.eq_of_testBit_eq fun k => ?_
  by_cases hk : k < w
  · rw [hbits k hk, if_pos (by omega)]
  · have hpow : 2 ^ w ≤ 2 ^ k := Nat.pow_le_pow_right (by decide) (by omega)
    rw [Nat.testBit_eq_false_of_lt (hlt.trans_le hpow), Nat.testBit_eq_false_of_lt (hv.trans_le hpow)]

theorem regOfSlot_slot (r : Reg) : regOfSlot r.slot = r := by cases r <;> rfl

/-- `WR OPk.j, v` takes one step (R65, R90). -/
theorem step_wrWord_operand {s : State} {r : Reg} {j : Nat} {v : Word} {ms : List Move} (hr : r.IsOperand)
    (hj : j < 128) (h : s.moves = wrWord s.cfg r j v :: ms) :
    step s = .next ({ s with moves := ms }.setOperand r (withWord s.width (s.operand r) j v)) := by
  have hslot : r.slot ≤ 6 := by obtain rfl | rfl | rfl := hr <;> decide
  rw [step_cons h, popMove_of_cons h]
  have hwrite := hostAccess_write { s with moves := ms } v (off := r.slot * 0x200 + 4 * j) (by omega) (by omega)
  rw [busWrite_wordOffset hj, regOfSlot_slot, writeReg_operand hr, ← Nat.add_assoc] at hwrite
  obtain rfl | rfl | rfl := hr <;> exact hwrite

/-- A trace of writes to words of one operand register, one step each (R68, R90). -/
theorem run_wrWords {r : Reg} (hr : r.IsOperand) (v : Nat) (rest : List Move) (js : List Nat) (hjs : ∀ j ∈ js, j < 128)
    (s : State) (h : s.moves = (js.map fun j => wrWord s.cfg r j (wordOf v j)) ++ rest) :
    Host.Core.run Sys2Proof.core js.length s =
      .next ({ s with moves := rest }.setOperand r (writeWords s.width v (s.operand r) js)) := by
  induction js generalizing s with
  | nil =>
    obtain rfl : s.moves = rest := h
    exact congrArg Host.Outcome.next (s.setOperand_operand r).symm
  | cons j js ih =>
    obtain ⟨hj, hjs⟩ := List.forall_mem_cons.mp hjs
    have hstep := step_wrWord_operand hr hj h
    rw [List.length_cons, run_succ _ hstep, ih hjs _ (by simp), State.setOperand_withMoves, State.setOperand_setOperand,
      State.operand_setOperand _ hr, State.width, State.setOperand_cfg]
    rfl

theorem wordCount_covers (c : Config) : c.width ≤ 32 * wordCount c := by unfold wordCount; omega

/-- Every word of a W-bit register is in its slot (R5, R61). -/
theorem wordCount_le {c : Config} (hc : c.wf = true) : wordCount c ≤ 128 := by
  simp only [Config.wf, Bool.and_eq_true, decide_eq_true_eq] at hc
  unfold wordCount
  omega

/-- `WR OPk, v` loads the register (R62, R65, R90). -/
theorem run_wrWide {s : State} (hs : s.InRange) {r : Reg} (hr : r.IsOperand) {v : Nat} (hv : v < 2 ^ s.width)
    {rest : List Move} (h : s.moves = wrWide s.cfg r v ++ rest) :
    Host.Core.run Sys2Proof.core (wordCount s.cfg) s = .next ({ s with moves := rest }.setOperand r v) := by
  have hrun := run_wrWords hr v rest (List.range (wordCount s.cfg))
    (fun j hj => (List.mem_range.mp hj).trans_le (wordCount_le hs.1)) s h
  rwa [List.length_range, writeWords_range_eq (hs.operand_lt hr) hv (wordCount_covers s.cfg)] at hrun

/-- Settles O45: the three operand registers. -/
theorem wideOperandWrite : Obligations.WideOperandWrite :=
  fun _ _ _ hs hv => ⟨run_wrWide hs (.inl rfl) hv, run_wrWide hs (.inr (.inl rfl)) hv, run_wrWide hs (.inr (.inr rfl)) hv⟩

end Sys2Proof.Machine
end

section
/-! SUPPORT. Which words are commands (spec/30_encoding.md R82, R85, R86, R88), and the results of the host's
pseudo-instructions (R91) on the operands of their expansions. -/

namespace Sys2Proof

/-! ### The decoder and the encoder -/

theorem toWord_inj {c c' : Cmd32} : c.toWord = c'.toWord ↔ c = c' :=
  (Function.LeftInverse.injective ofWord_toWord).eq_iff

theorem eq_encode_iff {w : Word} {i : Instr} : w = encode i ↔ Cmd32.ofWord w = i.fields := by
  rw [encode, ← toWord_inj, toWord_ofWord]

/-- OP alone, where it does not allow S, gives the fields of its command (R85). -/
theorem fields_of_plainCommand {k : Nat} {i : Instr} (h : Cmd32.plainCommand k = some i) :
    i.fields = { op := BitVec.ofNat 8 k, s := false, rsv := 0 } := by
  unfold Cmd32.plainCommand at h
  split at h <;> cases h <;> rfl

/-- Only a command's own fields decode to it (R85, R86). -/
theorem fields_of_decode {c : Cmd32} {i : Instr} (h : c.decode = .ok i) : c = i.fields := by
  obtain ⟨op, s, rsv⟩ := c
  unfold Cmd32.decode at h
  split at h
  · cases h
  · next hrsv =>
    obtain rfl : rsv = 0 := not_not.mp hrsv
    split at h
    · next hop => cases h; cases hop; rfl
    · split at h
      · cases h
      · next hplain =>
        split at h
        · cases h
        · next hs =>
          cases h
          obtain rfl : s = false := Bool.eq_false_iff.mpr hs
          rw [fields_of_plainCommand hplain, BitVec.ofNat_toNat, BitVec.setWidth_eq]

/-- A word decodes to a command exactly when it is the command's word (R85, R88). -/
theorem decode_eq_ok_iff {w : Word} {i : Instr} : decode w = .ok i ↔ w = encode i :=
  ⟨fun h => eq_encode_iff.mpr (fields_of_decode h), fun h => h ▸ Machine.decode_encode i⟩

theorem encode_injective : Function.Injective encode := fun i _ h =>
  Except.ok.inj ((Machine.decode_encode i).symm.trans (decode_eq_ok_iff.mpr h))

/-- Settles O5: the decoder and the encoder are inverse to each other. -/
theorem decodeEncodeAgree : Obligations.DecodeEncodeAgree := fun _ _ _ => decode_eq_ok_iff

/-- Settles O1: each word is the encoder's. -/
theorem writtenWordsDecode : Obligations.WrittenWordsDecode := by
  simp only [Obligations.WrittenWordsDecode, decode_eq_ok_iff]
  decide

/-! ### The opcode map -/

/-- The mask of MODRED's row clears S and keeps OP and RSV (R82, R85). -/
theorem and_maskS (w : Word) : w &&& 0xFFFFFEFF = { Cmd32.ofWord w with s := false }.toWord := by
  have hmask : ∀ k < 32, (0xFFFFFEFF : Word).getLsbD k = decide (k ≠ 8) := by decide
  refine BitVec.eq_of_getLsbD_eq fun k hk => ?_
  have hbit := congrArg (BitVec.getLsbD · k) (toWord_ofWord w)
  simp only [toWord_getLsbD] at hbit ⊢
  rw [BitVec.getLsbD_and, hmask k hk, ← hbit]
  obtain hop | rfl | hrsv := lt_trichotomy k 8
  · simp [hop, hop.ne]
  · simp
  · simp [hrsv.ne', show ¬ k < 8 by omega, show ¬ k < 9 by omega]

/-- A word is MODRED's, whatever its bit 8, when MODRED's row selects it (R85, R121). -/
theorem and_maskS_eq_iff (w : Word) : w &&& 0xFFFFFEFF = 3 ↔ w = encode (.modred (w.getLsbD 8)) := by
  have hpattern : (3 : Word) = (Instr.modred false).fields.toWord := rfl
  rw [and_maskS, hpattern, toWord_inj, eq_encode_iff]
  simp [Cmd32.ofWord, Instr.fields]

/-- The rows of R85: MODRED's leaves S free, and every other row's pattern is its command's whole word. -/
theorem opcodeTable_rows : ∀ r ∈ opcodeTable,
    (r.mask = BitVec.allOnes 32 ∧ ∀ b, r.pattern = encode (r.command b)) ∨
    (r.mask = 0xFFFFFEFF ∧ r.pattern = 3 ∧ ∀ b, r.command b = .modred b) := by
  decide

/-- A row selects exactly the word of its command, for the S bit that the word has (R85). -/
theorem row_selects_iff {r : OpcodeRow} (hr : r ∈ opcodeTable) (w : Word) :
    w &&& r.mask = r.pattern ↔ w = encode (r.command (w.getLsbD 8)) := by
  obtain ⟨hm, hp⟩ | ⟨hm, hp, hc⟩ := opcodeTable_rows r hr
  · rw [hm, BitVec.and_allOnes, hp]
  · rw [hm, hp, hc, and_maskS_eq_iff]

/-- Every command has its row (R85). -/
theorem exists_row (i : Instr) : ∃ r ∈ opcodeTable, r.command ((encode i).getLsbD 8) = i := by
  rw [encode, toWord_getLsbD]
  cases i <;> simp [opcodeTable, Instr.fields]

/-- Settles O2: the row of a command selects the command's word, and nothing else. -/
theorem opcodeMapSelectsTheDecodedCommand : Obligations.OpcodeMapSelectsTheDecodedCommand := by
  intro w i
  rw [decode_eq_ok_iff]
  constructor
  · rintro rfl
    obtain ⟨r, hr, hc⟩ := exists_row i
    exact ⟨r, hr, (row_selects_iff hr _).mpr (by rw [hc]), hc⟩
  · rintro ⟨r, hr, hsel, rfl⟩
    exact (row_selects_iff hr w).mp hsel

/-- No two rows stand for the same command (R85, R88). -/
theorem opcodeTable_commands_distinct : ∀ b : Bool, opcodeTable.Pairwise fun r r' => r.command b ≠ r'.command b := by
  decide

/-- Settles O3: two rows that select one word stand for one command. -/
theorem opcodeRowsAreDisjoint : Obligations.OpcodeRowsAreDisjoint := by
  intro w
  refine (opcodeTable_commands_distinct (w.getLsbD 8)).imp_of_mem fun hr hr' hne ⟨hsel, hsel'⟩ => hne ?_
  have hw := (row_selects_iff hr w).mp (beq_iff_eq.mp hsel)
  have hw' := (row_selects_iff hr' w).mp (beq_iff_eq.mp hsel')
  exact encode_injective (hw.symm.trans hw')

/-! ### Illegal words -/

/-- The values of OP that stand for no command, or for MODRED (R85). -/
theorem plainCommand_eq_none_iff (k : Nat) : Cmd32.plainCommand k = none ↔ k = 0 ∨ k = 3 ∨ 0x0D ≤ k := by
  unfold Cmd32.plainCommand
  split
  case h_12 =>
    simp only [imp_false, true_iff] at *
    omega
  all_goals simp

/-- The grounds of R86 on which a word is illegal, in numbers. -/
theorem wf_eq_false_iff (c : Cmd32) : c.wf = false ↔
    c.rsv ≠ 0 ∨ (c.op.toNat = 0 ∨ 0x0D ≤ c.op.toNat) ∨ (c.s = true ∧ c.op.toNat ≠ 0x03) := by
  have hassigned : (1 ≤ c.op.toNat ∧ c.op.toNat ≤ 0x0C) ↔ ¬ (c.op.toNat = 0 ∨ 0x0D ≤ c.op.toNat) := by omega
  have hop : c.op = 0x03 ↔ c.op.toNat = 0x03 := BitVec.toNat_inj.symm
  rw [← not_iff_not, Bool.not_eq_false, Cmd32.wf, Cmd32.reservedClear, Cmd32.opcodeAssigned, Cmd32.signAllowed]
  simp only [Bool.and_eq_true, Bool.or_eq_true, Bool.not_eq_true', beq_iff_eq, decide_eq_true_eq, hop, hassigned,
    ← Bool.not_eq_true]
  tauto

/-- The decoder rejects exactly the fields that are not well formed (R86). -/
theorem exists_decode_error_iff (c : Cmd32) : (∃ e, c.decode = .error e) ↔ c.wf = false := by
  rw [wf_eq_false_iff]
  unfold Cmd32.decode
  split
  · next hrsv => exact iff_of_true ⟨_, rfl⟩ (.inl hrsv)
  · next hrsv =>
    split
    · next hop => exact iff_of_false nofun (by simp [hop, not_not.mp hrsv])
    · next hop =>
      have hop3 : c.op.toNat ≠ 3 := fun h => hop (BitVec.eq_of_toNat_eq h)
      split
      · next hplain =>
        have hreserved := (plainCommand_eq_none_iff _).mp hplain
        exact iff_of_true ⟨_, rfl⟩ (.inr (.inl (by omega)))
      · next hplain =>
        have hassigned := (plainCommand_eq_none_iff c.op.toNat).not.mp (by simp [hplain])
        split
        · next hs => exact iff_of_true ⟨_, rfl⟩ (.inr (.inr ⟨hs, hop3⟩))
        · next hs => exact iff_of_false nofun (by rintro (h | h | ⟨h, -⟩); exacts [hrsv h, by omega, hs h])

/-- The same grounds, on the whole word (R82, R86). -/
theorem ofWord_wf_eq_false_iff (w : Word) : (Cmd32.ofWord w).wf = false ↔
    w.toNat / 512 ≠ 0 ∨ (w.toNat % 256 = 0 ∨ 0x0D ≤ w.toNat % 256) ∨
      (w.toNat / 256 % 2 = 1 ∧ w.toNat % 256 ≠ 0x03) := by
  have hw := w.isLt
  have hop : (Cmd32.ofWord w).op.toNat = w.toNat % 256 := BitVec.extractLsb'_toNat ..
  have hs : (Cmd32.ofWord w).s = decide (w.toNat / 256 % 2 = 1) := Nat.testBit_eq_decide_div_mod_eq
  have hrsv : (Cmd32.ofWord w).rsv.toNat = w.toNat / 512 := by
    rw [Cmd32.ofWord, BitVec.extractLsb'_toNat, Nat.shiftRight_eq_div_pow]
    exact Nat.mod_eq_of_lt (by omega)
  rw [wf_eq_false_iff, ne_eq, ← BitVec.toNat_inj, hop, hs, hrsv, decide_eq_true_eq]
  rfl

end Sys2Proof

namespace Sys2Proof.Machine

/-- The completion of an illegal word (R86). -/
theorem engineTurn_of_illegal {s : State} (hb : s.busy = true) (hd : ∃ e, decode s.lcmd = .error e) :
    engineTurn s = .next (s.finish .illegalCmd) := by
  obtain ⟨e, he⟩ := hd
  simp [engineTurn, completion, hb, he, execIllegal]

/-- Settles O4: the decoder rejects the words that are not well formed, an idle block accepts every word (O37's second
part), and the completion of an illegal one only finishes. -/
theorem illegalWordsExactly : Obligations.IllegalWordsExactly :=
  ⟨fun w => (exists_decode_error_iff _).trans (ofWord_wf_eq_false_iff w),
    fun s w hb => (commandAcceptance s w).2 hb,
    fun _ hb hd => engineTurn_of_illegal hb hd⟩

/-! ### The pseudo-instructions of R91 -/

theorem exec_modmul_of_modulus {s : State} (hn : s.l2 ≠ 0) :
    exec .modmul s = .next ((s.withRes0 (s.l0 * s.l1 % s.l2)).finish .none) := if_neg hn

theorem exec_barrett_of_modulus {s : State} (hn : s.l2 ≠ 0) :
    exec .barrett s = .next ((s.withRes0 (s.wide % s.l2)).finish .none) := if_neg hn

/-- MONTMUL on operands below an odd modulus (R142). -/
theorem exec_montmul_of_legal {s : State} (hodd : s.l2 % 2 = 1) (h0 : s.l0 < s.l2) (h1 : s.l1 < s.l2) :
    exec .montmul s =
      .next ((s.withRes0 (s.l0 * s.l1 * modInvExists (2 ^ s.cfg.width % s.l2) s.l2 % s.l2)).finish .none) := by
  have hn : ¬ (s.third = 0 ∨ s.third % 2 = 0) := by simp only [State.third_eq]; omega
  have hlt : ¬ (s.third ≤ s.first ∨ s.third ≤ s.second) := not_or.mpr ⟨not_le.mpr h0, not_le.mpr h1⟩
  exact (if_neg hn).trans (if_neg hlt)

theorem coprime_two_pow {n : Nat} (hodd : n % 2 = 1) (w : Nat) : Nat.Coprime n (2 ^ w) :=
  (Nat.odd_iff.mpr hodd).coprime_two_right.pow_right w

/-- `Rinv` undoes the factor `2^W` (R142). -/
theorem mul_montgomeryInverse_modEq {n : Nat} (hodd : n % 2 = 1) (w x : Nat) :
    x * modInvExists (2 ^ w % n) n % n * 2 ^ w ≡ x [MOD n] := by
  have hgcd : Nat.gcd (2 ^ w % n) n = 1 := by
    rw [← Nat.gcd_rec]; exact coprime_two_pow hodd w
  obtain ⟨-, -, hinv⟩ := modInvExists_spec (2 ^ w % n) n (by omega) hgcd
  calc x * modInvExists (2 ^ w % n) n % n * 2 ^ w
      ≡ x * modInvExists (2 ^ w % n) n * (2 ^ w % n) [MOD n] :=
        (Nat.mod_modEq _ n).mul (Nat.mod_modEq _ n).symm
    _ = x * (2 ^ w % n * modInvExists (2 ^ w % n) n) := by ring
    _ ≡ x * 1 [MOD n] := hinv.mul_left x
    _ = x := Nat.mul_one x

/-- MONTMUL's result is a residue, and `2^W` times it is the product of the operands (R142). -/
theorem exec_montmul_res0 {s t : State} (hodd : s.l2 % 2 = 1) (h0 : s.l0 < s.l2) (h1 : s.l1 < s.l2)
    (h : exec .montmul s = .next t) :
    t.res0 < s.l2 ∧ t.res0 * 2 ^ s.cfg.width ≡ s.l0 * s.l1 [MOD s.l2] := by
  rw [exec_montmul_of_legal hodd h0 h1] at h
  cases h
  exact ⟨Nat.mod_lt _ (by omega), mul_montgomeryInverse_modEq hodd _ _⟩

/-- Settles O60: each part is the result of one completion, and MONTMUL's factor `2^W` cancels modulo an odd number. -/
theorem pseudoInstructionResults : Obligations.PseudoInstructionResults := by
  refine fun s t => ⟨fun hn h0 h1 h => ?rmodn, fun hn h0 h1 h => ?r2modn, fun hn h1 h => ?modsqr,
    fun hodd h0 h1 h => ?tomont, fun hodd h3 h0 h1 h => ?frommont⟩
  case rmodn =>
    rw [exec_barrett_of_modulus hn] at h
    cases h
    simp [State.wide, h0, h1]
  case r2modn =>
    rw [exec_modmul_of_modulus hn] at h
    cases h
    simp only [State.finish_res0, State.withRes0_res0, h1]
    rw [h0, ← Nat.mul_mod, ← pow_add, two_mul]
  case modsqr =>
    rw [exec_modmul_of_modulus hn] at h
    cases h
    simp [h1, pow_two]
  case tomont =>
    obtain ⟨hlt, hr⟩ := exec_montmul_res0 hodd h0 (h1 ▸ Nat.mod_lt _ (by omega)) h
    have hcancel : t.res0 * 2 ^ s.cfg.width ≡ s.l0 * 2 ^ s.cfg.width * 2 ^ s.cfg.width [MOD s.l2] :=
      calc t.res0 * 2 ^ s.cfg.width ≡ s.l0 * s.l1 [MOD s.l2] := hr
        _ ≡ s.l0 * 2 ^ (2 * s.cfg.width) [MOD s.l2] := h1 ▸ (Nat.mod_modEq _ _).mul_left _
        _ = s.l0 * 2 ^ s.cfg.width * 2 ^ s.cfg.width := by ring
    exact (Nat.mod_eq_of_lt hlt).symm.trans (hcancel.cancel_right_of_coprime (coprime_two_pow hodd _))
  case frommont =>
    obtain ⟨-, hr⟩ := exec_montmul_res0 hodd h0 (by omega) h
    rw [h1, Nat.mul_one] at hr
    exact Eq.trans hr (Nat.mod_eq_of_lt h0)

end Sys2Proof.Machine
end

section
/-! SUPPORT. The statements about GCD and XGCD: Euclid's recurrences, the size of the Bézout coefficients, the two
completions, and the loop that carries its accumulators (spec/40_gcd_xgcd.md). -/

namespace Sys2Proof.Machine

/-! ### GCD (R100, R103) -/

/-- One round of Euclid keeps the gcd (R100). -/
theorem gcd_mod_round (a b : Nat) : Nat.gcd b (a % b) = Nat.gcd a b := by
  rw [Nat.gcd_comm a b, Nat.gcd_rec b a, Nat.gcd_comm]

/-- Settles O9: `gcdE` is the gcd, which a round of Euclid keeps. -/
theorem gcdFollowsEuclid : Obligations.GcdFollowsEuclid := by
  refine ⟨fun _ => rfl, fun a b _ => ?_⟩
  rw [gcdE_eq_gcd, gcdE_eq_gcd, gcd_mod_round]

theorem exec_gcd (s : State) : exec .gcd s = .next ((s.withRes0 (Nat.gcd s.l0 s.l1)).finish .none) :=
  gcdE_eq_gcd s.l0 s.l1 ▸ rfl

/-- Settles O10: the completion above, and a gcd is below every strict bound of its operands. -/
theorem gcdResult : Obligations.GcdResult :=
  ⟨rfl, fun s => ⟨exec_gcd s, Nat.lt_succ_iff.mp
    (gcd_lt_of_lt (Nat.lt_succ_of_le (le_max_left ..)) (Nat.lt_succ_of_le (le_max_right ..)))⟩⟩

/-! ### XGCD's recurrence and its coefficients (R101, R105) -/

/-- Settles O11: the model's equation for a step of the recurrence, at the triple of the smaller problem. -/
theorem xgcdFollowsTheRecurrence : Obligations.XgcdFollowsTheRecurrence := by
  refine ⟨xgcdR_zero, fun a b g x y hb h => ?_⟩
  rw [xgcdR_step a b hb, h]

theorem xgcdR_eq (a b : Nat) : xgcdR a b = (Nat.gcd a b, (xgcdR a b).2.1, (xgcdR a b).2.2) :=
  Prod.ext (xgcdR_fst a b) rfl

/-- The bound of R105 in the spec's form, which is weaker than `xgcdR_bound` at `b = 0`. -/
theorem xgcdR_abs_le (a b : Nat) :
    |(xgcdR a b).2.1| ≤ max 1 ((b / Nat.gcd a b : Nat) : Int) ∧
      |(xgcdR a b).2.2| ≤ max 1 ((a / Nat.gcd a b : Nat) : Int) := by
  obtain ⟨hx, hy⟩ := xgcdR_bound a b
  refine ⟨hx, hy.trans (max_le_max_right _ ?_)⟩
  split <;> decide

/-- An integer bounded by 1 or by a W-bit value is one of W+1 bits in two's complement (R28, R105). -/
theorem fits_of_abs_le_max {x : Int} {c w : Nat} (hw : w ≠ 0) (hx : |x| ≤ max 1 (c : Int)) (hc : c < 2 ^ w) :
    -(2 : Int) ^ w ≤ x ∧ x ≤ 2 ^ w - 1 := by
  have h1 : (1 : Int) < 2 ^ w := one_lt_pow₀ (by decide) hw
  have hc' : (c : Int) < 2 ^ w := by exact_mod_cast hc
  have hlt : |x| < 2 ^ w := hx.trans_lt (max_lt h1 hc')
  obtain ⟨hlo, hhi⟩ := abs_lt.mp hlt
  exact ⟨hlo.le, Int.le_sub_one_of_lt hhi⟩

/-- The Bézout coefficients of W-bit operands fit W+1 bits (R105). -/
theorem xgcdR_fits {a b w : Nat} (hw : w ≠ 0) (ha : a < 2 ^ w) (hb : b < 2 ^ w) :
    (-(2 : Int) ^ w ≤ (xgcdR a b).2.1 ∧ (xgcdR a b).2.1 ≤ 2 ^ w - 1) ∧
      (-(2 : Int) ^ w ≤ (xgcdR a b).2.2 ∧ (xgcdR a b).2.2 ≤ 2 ^ w - 1) := by
  obtain ⟨hx, hy⟩ := xgcdR_abs_le a b
  exact ⟨fits_of_abs_le_max hw hx ((Nat.div_le_self b _).trans_lt hb),
    fits_of_abs_le_max hw hy ((Nat.div_le_self a _).trans_lt ha)⟩

/-- Settles O13: the bound of R105 and the fit above; `g = 0` is the pair of zeros. -/
theorem bezoutCoefficientsFit : Obligations.BezoutCoefficientsFit := by
  intro a b g x y h
  obtain ⟨rfl, rfl, rfl⟩ : Nat.gcd a b = g ∧ (xgcdR a b).2.1 = x ∧ (xgcdR a b).2.2 = y := by
    simpa only [Prod.ext_iff, xgcdR_fst] using h
  refine ⟨rfl, fun _ => xgcdR_abs_le a b, fun hg => ?zeros, fun w hw ha hb => ?fits⟩
  case zeros =>
    obtain ⟨rfl, rfl⟩ := Nat.gcd_eq_zero_iff.mp hg
    exact ⟨rfl, rfl⟩
  case fits =>
    obtain ⟨⟨hxlo, hxhi⟩, hy⟩ := xgcdR_fits (by omega) ha hb
    exact ⟨hxlo, hxhi, hy⟩

/-! ### XGCD (R104) -/

theorem exec_xgcd (s : State) :
    exec .xgcd s =
      .next ((s.withBezout (Nat.gcd s.l0 s.l1) (xgcdR s.l0 s.l1).2.1 (xgcdR s.l0 s.l1).2.2).finish .none) :=
  xgcdR_fst s.l0 s.l1 ▸ rfl

theorem State.InRange.width_ne_zero {s : State} (hs : s.InRange) : s.width ≠ 0 := by
  obtain ⟨hcfg, -⟩ := hs
  simp only [Config.wf, Bool.and_eq_true, decide_eq_true_eq] at hcfg
  show s.cfg.width ≠ 0
  omega

/-- Settles O12: the completion above, Bézout's identity, and `sext_enc` on coefficients that fit. -/
theorem xgcdResult : Obligations.XgcdResult := by
  refine ⟨rfl, fun s => ⟨_, _, xgcdR_eq s.l0 s.l1, xgcdR_bezout s.l0 s.l1, exec_xgcd s, fun hs => ?_⟩⟩
  obtain ⟨h0, h1, -⟩ := hs.latches_lt
  obtain ⟨⟨hxlo, hxhi⟩, hylo, hyhi⟩ := xgcdR_fits hs.width_ne_zero h0 h1
  exact ⟨sext_enc _ _ hxlo (Int.lt_of_le_sub_one hxhi), sext_enc _ _ hylo (Int.lt_of_le_sub_one hyhi)⟩

/-! ### The iterative form (R102) -/

/-- What the loop returns from any accumulators: the gcd of the remainders still to divide, and each pair of accumulators
combined with the remainders' Bézout coefficients. -/
theorem xgcdLoop_eq : ∀ (fuel r0 r1 : Nat) (s0 s1 t0 t1 : Int), r1 ≤ fuel →
    xgcdLoop fuel r0 r1 s0 s1 t0 t1 =
      (Nat.gcd r0 r1, (xgcdR r0 r1).2.1 * s0 + (xgcdR r0 r1).2.2 * s1,
        (xgcdR r0 r1).2.1 * t0 + (xgcdR r0 r1).2.2 * t1)
  | 0, r0, r1, s0, s1, t0, t1, h => by
    obtain rfl := Nat.le_zero.mp h
    simp [xgcdLoop, xgcdR_zero]
  | fuel + 1, r0, r1, s0, s1, t0, t1, h => by
    unfold xgcdLoop
    split
    · next hr => simp [hr, xgcdR_zero]
    · next hr =>
      have hlt := Nat.mod_lt r0 (Nat.pos_of_ne_zero hr)
      simp only [← Nat.mod_eq_sub_div_mul]
      rw [xgcdLoop_eq fuel r1 (r0 % r1) _ _ _ _ (by omega), xgcdR_step r0 r1 hr, gcd_mod_round]
      congr 2 <;> ring

/-- Settles O14: the loop's value at the accumulators (1, 0) and (0, 1). -/
theorem xgcdLoopIsTheRecurrence : Obligations.XgcdLoopIsTheRecurrence := by
  intro a b
  rw [xgcdI, xgcdLoop_eq b a b 1 0 0 1 le_rfl, xgcdR_eq]
  simp

end Sys2Proof.Machine
end

section
/-! SUPPORT. The statements about MODRED and MODINV: the truncating remainder and its correction, the inverse and its
uniqueness, the completions, and the size of the inverse's coefficient (spec/41_modred_modinv.md). -/

namespace Sys2Proof.Machine

/-! ### MODRED (R120, R121) -/

/-- The single correction suffices: a truncating remainder is above `-n` (R120). -/
theorem modRed_eq_corrected (a : Int) {n : Nat} (hn : 0 < n) :
    (modRed a n : Int) = if a - n * a.tdiv n < 0 then a - n * a.tdiv n + n else a - n * a.tdiv n := by
  have hlow : -(n : Int) < a - n * a.tdiv n := Int.tmod_def a n ▸ Int.lt_tmod_of_pos a (Int.natCast_pos.mpr hn)
  simp only [modRed]
  split
  · exact Int.toNat_of_nonneg (neg_le_iff_add_nonneg.mp hlow.le)
  · next hr => exact Int.toNat_of_nonneg (not_lt.mp hr)

/-- Settles O16: the corrected remainder above, and the model's lemmas on its value and its bound. -/
theorem modRedIsTheEuclideanRemainder : Obligations.ModRedIsTheEuclideanRemainder :=
  fun a n hn => ⟨modRed_eq_corrected a hn, modRed_eq_emod a n hn, modRed_lt a n hn⟩

theorem exec_modred_of_zero {s : State} (hn : s.l2 = 0) (signed : Bool) :
    exec (.modred signed) s = .next (s.finish .domain) := if_pos hn

theorem exec_modred_of_modulus {s : State} (hn : s.l2 ≠ 0) (signed : Bool) :
    exec (.modred signed) s = .next ((s.withRes0 (s.firstAs signed % s.l2).toNat).finish .none) := by
  rw [← modRed_eq_emod _ _ (Nat.pos_of_ne_zero hn), Int.toNat_natCast]
  exact if_neg hn

/-- Settles O17: the two words, and the two completions above. -/
theorem modredResult : Obligations.ModredResult :=
  ⟨rfl, rfl, fun _ signed => ⟨fun hn => exec_modred_of_zero hn signed, fun hn => exec_modred_of_modulus hn signed⟩⟩

/-! ### MODINV (R122, R123) -/

theorem exec_modinv_of_zero {s : State} (hn : s.l2 = 0) : exec .modinv s = .next (s.finish .domain) := if_pos hn

theorem exec_modinv_of_not_coprime {s : State} (hn : s.l2 ≠ 0) (hg : Nat.gcd s.l0 s.l2 ≠ 1) :
    exec .modinv s = .next (s.finish .noInverse) := by
  simp [exec, execModinv, hn, modInv_eq, hg]

theorem exec_modinv_of_coprime {s : State} (hn : s.l2 ≠ 0) (hg : Nat.gcd s.l0 s.l2 = 1) :
    exec .modinv s = .next ((s.withRes0 (modInvExists s.l0 s.l2)).finish .none) := by
  obtain ⟨hinv, -⟩ := modInvExists_spec s.l0 s.l2 (Nat.pos_of_ne_zero hn) hg
  simp [exec, execModinv, hn, hinv]

/-- An inverse below the modulus is the inverse that `modInv` finds (R122, R123). -/
theorem eq_modInvExists_of_modEq {a n r : Nat} (hg : Nat.gcd a n = 1) (hr : r < n) (h : a * r ≡ 1 [MOD n]) :
    r = modInvExists a n := by
  obtain ⟨-, hlt, hinv⟩ := modInvExists_spec a n (Nat.zero_lt_of_lt hr) hg
  have hcancel : r ≡ modInvExists a n [MOD n] :=
    (h.trans hinv.symm).cancel_left_of_coprime (Nat.gcd_comm a n ▸ hg)
  exact hcancel.eq_of_lt_of_lt hr hlt

/-- Settles O18: the three completions above, and the inverse's uniqueness. -/
theorem modinvResult : Obligations.ModinvResult := by
  refine ⟨rfl, fun s => ⟨exec_modinv_of_zero, exec_modinv_of_not_coprime, fun hn hg => ?_⟩⟩
  obtain ⟨-, hlt, hinv⟩ := modInvExists_spec s.l0 s.l2 (Nat.pos_of_ne_zero hn) hg
  exact ⟨_, hlt, hinv, fun _ hr h => eq_modInvExists_of_modEq hg hr h, exec_modinv_of_coprime hn hg⟩

/-! ### The inverse's coefficient (R124) -/

/-- Bézout's identity modulo `n`: a divisor of the coefficient and of `n` divides 1. -/
theorem not_dvd_xgcdR_coefficient {a n : Nat} (hn : 1 < n) (hg : Nat.gcd a n = 1) : ¬ (n : Int) ∣ (xgcdR a n).2.1 := by
  intro hdvd
  have hone : (n : Int) ∣ (1 : Nat) := by
    rw [← hg, ← xgcdR_bezout a n]
    exact dvd_add (hdvd.mul_left _) (dvd_mul_right _ _)
  exact hn.ne' (Nat.dvd_one.mp (Int.natCast_dvd_natCast.mp hone))

/-- Settles O19: R105 bounds the coefficient by `n`, and it is neither `n` nor `-n`, as `n` does not divide it. -/
theorem inverseCoefficientIsSmall : Obligations.InverseCoefficientIsSmall := by
  intro a n g x y hn hg h
  obtain rfl : (xgcdR a n).2.1 = x := by rw [h]
  obtain ⟨hle, -⟩ := xgcdR_abs_le a n
  rw [hg, Nat.div_one, max_eq_right (by exact_mod_cast hn.le)] at hle
  have hne : |(xgcdR a n).2.1| ≠ n := fun habs =>
    not_dvd_xgcdR_coefficient hn hg ((dvd_abs _ _).mp (dvd_of_eq habs.symm))
  exact abs_lt.mp (lt_of_le_of_ne hle hne)

end Sys2Proof.Machine
end

section
/-! SUPPORT. The statements about MODMUL, MONTMUL and BARRETT: the completions, division by `2^W` modulo an odd number,
Montgomery's REDC, products through the Montgomery domain, and Barrett's estimate (spec/42_modmul.md). -/

namespace Sys2Proof.Machine

/-! ### MODMUL (R140, R141) -/

theorem exec_modmul_of_zero {s : State} (hn : s.l2 = 0) : exec .modmul s = .next (s.finish .domain) := if_pos hn

/-- On naturals `modRed` is the remainder (R120, R141). -/
theorem modRed_natCast (x : Nat) {n : Nat} (hn : 0 < n) : modRed x n = x % n :=
  Int.natCast_inj.mp ((modRed_eq_emod x n hn).trans (Int.natCast_emod x n).symm)

/-- Settles O20: MODMUL's two completions, and `modRed` on a product of naturals. -/
theorem modmulResult : Obligations.ModmulResult := by
  refine ⟨rfl, fun s => ⟨exec_modmul_of_zero, fun hn => ⟨exec_modmul_of_modulus hn, ?_⟩⟩⟩
  rw [← Nat.cast_mul, modRed_natCast _ (Nat.pos_of_ne_zero hn)]

/-! ### MONTMUL (R142) -/

theorem exec_montmul_of_illegal {s : State} (h : s.l2 = 0 ∨ s.l2 % 2 = 0 ∨ s.l2 ≤ s.l0 ∨ s.l2 ≤ s.l1) :
    exec .montmul s = .next (s.finish .domain) := by
  obtain hn | hlt := or_assoc.mpr h
  · exact if_pos hn
  · simp [exec, execMontmul, hlt]

/-- MONTMUL ends without error on an odd modulus above both operands only (R142). -/
theorem montmul_legal_of_noError {s t : State} (h : exec .montmul s = .next t) (herr : t.err = .none) :
    s.l2 % 2 = 1 ∧ s.l0 < s.l2 ∧ s.l1 < s.l2 := by
  by_contra hill
  rw [exec_montmul_of_illegal (by omega)] at h
  cases h
  cases herr

/-- Modulo an odd `n` the factor `2^W` cancels, so it fixes a residue (R142). -/
theorem eq_mod_of_mul_two_pow_modEq {n r x w : Nat} (hodd : n % 2 = 1) (hr : r < n)
    (h : r * 2 ^ w ≡ x * 2 ^ w [MOD n]) : r = x % n :=
  (Nat.mod_eq_of_lt hr).symm.trans (h.cancel_right_of_coprime (coprime_two_pow hodd w))

/-- A residue `r` with `r * 2^W` congruent to the product of the operands is MONTMUL's result (R142). -/
theorem exec_montmul_of_modEq {s : State} {r : Nat} (hodd : s.l2 % 2 = 1) (h0 : s.l0 < s.l2) (h1 : s.l1 < s.l2)
    (hr : r < s.l2) (hmod : r * 2 ^ s.cfg.width ≡ s.l0 * s.l1 [MOD s.l2]) :
    exec .montmul s = .next ((s.withRes0 r).finish .none) := by
  have hinv := mul_montgomeryInverse_modEq hodd s.cfg.width (s.l0 * s.l1)
  rw [exec_montmul_of_legal hodd h0 h1, eq_mod_of_mul_two_pow_modEq hodd hr (hmod.trans hinv.symm), Nat.mod_mod]

/-- Settles O21: MONTMUL's completions; its result has the congruence, and the congruence fixes a residue. -/
theorem montmulResult : Obligations.MontmulResult := by
  refine ⟨rfl, fun s => ⟨exec_montmul_of_illegal, fun hodd h0 h1 => ?_⟩⟩
  have hexec := exec_montmul_of_legal hodd h0 h1
  obtain ⟨hlt, hmod⟩ := exec_montmul_res0 hodd h0 h1 hexec
  refine ⟨_, hlt, hmod, fun r hr hmod' => ?_, hexec⟩
  exact (eq_mod_of_mul_two_pow_modEq hodd hr (Eq.trans hmod' hmod.symm)).trans (Nat.mod_eq_of_lt hlt)

/-! ### REDC (R143) -/

/-- `n'` is the inverse of `-n` modulo `2^W` (R143). -/
theorem two_pow_dvd_negInverse_mul_add_one {n : Nat} (hodd : n % 2 = 1) (w : Nat) :
    2 ^ w ∣ negInverse w n * n + 1 := by
  have hpos : 0 < 2 ^ w := Nat.two_pow_pos w
  obtain ⟨-, -, hinv⟩ := modInvExists_spec n (2 ^ w) hpos (coprime_two_pow hodd w)
  have hneg : (negInverse w n : Int) ≡ -(modInvExists n (2 ^ w) : Int) [ZMOD (2 ^ w : Nat)] := by
    rw [negInverse, modRed_eq_emod _ _ hpos]
    exact Int.mod_modEq _ _
  refine Int.natCast_dvd_natCast.mp (Int.modEq_zero_iff_dvd.mp ?_)
  push_cast at hneg ⊢
  calc (negInverse w n : Int) * n + 1
      ≡ -(modInvExists n (2 ^ w) : Int) * n + 1 [ZMOD 2 ^ w] := (hneg.mul_right _).add_right 1
    _ = 1 - n * modInvExists n (2 ^ w) := by ring
    _ ≡ 1 - 1 [ZMOD 2 ^ w] := Int.ModEq.rfl.sub (by exact_mod_cast Int.natCast_modEq_iff.mpr hinv)
    _ = 0 := sub_self 1

/-- The multiple of `n` that REDC adds to `T` (R143). -/
def redcFactor (w n T : Nat) : Nat := T % 2 ^ w * negInverse w n % 2 ^ w

/-- REDC's quotient, before the subtraction (R143). -/
def redcQuotient (w n T : Nat) : Nat := (T + redcFactor w n T * n) / 2 ^ w

theorem redc_eq (w n T : Nat) :
    redc w n T = if n ≤ redcQuotient w n T then redcQuotient w n T - n else redcQuotient w n T := rfl

/-- REDC divides exactly (R143). -/
theorem two_pow_dvd_redcSum {n : Nat} (hodd : n % 2 = 1) (w T : Nat) : 2 ^ w ∣ T + redcFactor w n T * n := by
  refine (Nat.modEq_zero_iff_dvd).mp ?_
  calc T + redcFactor w n T * n
      ≡ T + T * negInverse w n * n [MOD 2 ^ w] :=
        (((Nat.mod_modEq _ _).trans ((Nat.mod_modEq _ _).mul_right _)).mul_right n).add_left T
    _ = T * (negInverse w n * n + 1) := by ring
    _ ≡ 0 [MOD 2 ^ w] := Nat.modEq_zero_iff_dvd.mpr ((two_pow_dvd_negInverse_mul_add_one hodd w).mul_left T)

/-- One subtraction is enough for REDC (R143). -/
theorem redcQuotient_lt {w n T : Nat} (hT : T < n * 2 ^ w) : redcQuotient w n T < 2 * n := by
  have hfactor : redcFactor w n T * n ≤ 2 ^ w * n := Nat.mul_le_mul_right n (Nat.mod_lt _ (Nat.two_pow_pos w)).le
  refine Nat.div_lt_of_lt_mul ?_
  calc T + redcFactor w n T * n < n * 2 ^ w + 2 ^ w * n := Nat.add_lt_add_of_lt_of_le hT hfactor
    _ = 2 ^ w * (2 * n) := by ring

theorem redc_lt {w n T : Nat} (hT : T < n * 2 ^ w) : redc w n T < n := by
  have hlt := redcQuotient_lt hT
  rw [redc_eq]
  split <;> omega

theorem redc_modEq_redcQuotient (w n T : Nat) : redc w n T ≡ redcQuotient w n T [MOD n] := by
  rw [redc_eq]
  split
  · next hle => exact (Nat.mod_eq_sub_mod hle).symm
  · rfl

/-- `2^W` times REDC's result is `T`, modulo `n` (R143). -/
theorem redc_mul_two_pow_modEq {n : Nat} (hodd : n % 2 = 1) (w T : Nat) : redc w n T * 2 ^ w ≡ T [MOD n] :=
  calc redc w n T * 2 ^ w ≡ redcQuotient w n T * 2 ^ w [MOD n] := (redc_modEq_redcQuotient w n T).mul_right _
    _ = T + redcFactor w n T * n := Nat.div_mul_cancel (two_pow_dvd_redcSum hodd w T)
    _ ≡ T [MOD n] := Nat.add_mul_mod_self_right T _ n

/-- Settles O22: REDC divides exactly, its result is the residue that MONTMUL's rule fixes, and a product of two
residues of a W-bit modulus is in REDC's range. -/
theorem redcComputesMontmul : Obligations.RedcComputesMontmul := by
  refine ⟨fun w n T hodd hT => ⟨?exact, redcQuotient_lt hT, redc_lt hT, redc_mul_two_pow_modEq hodd w T⟩,
    fun s hs hodd h0 h1 => ?montmul⟩
  case exact => exact Nat.mod_eq_zero_of_dvd (two_pow_dvd_redcSum hodd w T)
  case montmul =>
    obtain ⟨-, -, h2⟩ := hs.latches_lt
    have hT : s.l0 * s.l1 < s.l2 * 2 ^ s.cfg.width := Nat.mul_lt_mul'' h0 (h1.trans h2)
    exact exec_montmul_of_modEq hodd h0 h1 (redc_lt hT) (redc_mul_two_pow_modEq hodd _ _)

/-! ### Products through the Montgomery domain (R144) -/

/-- The Montgomery product of two operands in the domain is their product in the domain (R144). -/
theorem montmul_in_domain {s t : State} {a b : Nat} (h : exec .montmul s = .next t) (herr : t.err = .none)
    (h0 : s.l0 = a * 2 ^ s.cfg.width % s.l2) (h1 : s.l1 = b * 2 ^ s.cfg.width % s.l2) :
    t.res0 = a * b * 2 ^ s.cfg.width % s.l2 := by
  obtain ⟨hodd, hlt0, hlt1⟩ := montmul_legal_of_noError h herr
  obtain ⟨hlt, hmod⟩ := exec_montmul_res0 hodd hlt0 hlt1 h
  refine eq_mod_of_mul_two_pow_modEq (w := s.cfg.width) hodd hlt ?_
  calc t.res0 * 2 ^ s.cfg.width ≡ s.l0 * s.l1 [MOD s.l2] := hmod
    _ ≡ a * 2 ^ s.cfg.width * (b * 2 ^ s.cfg.width) [MOD s.l2] :=
        h0 ▸ h1 ▸ (Nat.mod_modEq _ _).mul (Nat.mod_modEq _ _)
    _ = a * b * 2 ^ s.cfg.width * 2 ^ s.cfg.width := by ring

/-- The Montgomery product by 1 leaves the domain (R144). -/
theorem montmul_out_of_domain {s t : State} {x : Nat} (h : exec .montmul s = .next t) (herr : t.err = .none)
    (h0 : s.l0 = x * 2 ^ s.cfg.width % s.l2) (h1 : s.l1 = 1) : t.res0 = x % s.l2 := by
  obtain ⟨hodd, hlt0, hlt1⟩ := montmul_legal_of_noError h herr
  obtain ⟨hlt, hmod⟩ := exec_montmul_res0 hodd hlt0 hlt1 h
  rw [h1, Nat.mul_one] at hmod
  exact eq_mod_of_mul_two_pow_modEq hodd hlt (hmod.trans (h0 ▸ Nat.mod_modEq _ _))

/-- The Montgomery product by `2^(2W) mod n` enters the domain (R91's TOMONT, R144). -/
theorem montmul_into_domain {s t : State} (h : exec .montmul s = .next t) (herr : t.err = .none)
    (h1 : s.l1 = 2 ^ (2 * s.cfg.width) % s.l2) : t.res0 = s.l0 * 2 ^ s.cfg.width % s.l2 := by
  obtain ⟨hodd, hlt0, -⟩ := montmul_legal_of_noError h herr
  obtain ⟨-, -, -, htomont, -⟩ := pseudoInstructionResults s t
  exact htomont hodd hlt0 h1 h

/-- Settles O23: two operands enter the domain, are multiplied in it, and their product leaves it. -/
theorem montgomeryDomainProduct : Obligations.MontgomeryDomainProduct := by
  intro s₁ s₂ s₃ s₄ t₁ t₂ t₃ t₄ h₁ h₂ h₃ h₄ e₁ e₂ e₃ e₄ c₂ c₃ c₄ n₂ n₃ n₄ r₁ r₂ x₃ y₃ x₄ y₄
  have ht₁ : t₁.res0 = s₁.l0 * 2 ^ s₁.cfg.width % s₁.l2 := montmul_into_domain h₁ e₁ r₁
  have ht₂ : t₂.res0 = s₂.l0 * 2 ^ s₂.cfg.width % s₂.l2 := montmul_into_domain h₂ e₂ (by rw [r₂, c₂, n₂])
  have ht₃ : t₃.res0 = s₁.l0 * s₂.l0 * 2 ^ s₃.cfg.width % s₃.l2 :=
    montmul_in_domain h₃ e₃ (by rw [x₃, ht₁, c₃, n₃]) (by rw [y₃, ht₂, c₂, n₂, c₃, n₃])
  rw [← n₄]
  exact montmul_out_of_domain h₄ e₄ (by rw [x₄, ht₃, c₃, n₃, c₄, n₄]) y₄

/-! ### BARRETT (R145) -/

theorem exec_barrett_of_zero {s : State} (hn : s.l2 = 0) : exec .barrett s = .next (s.finish .domain) := if_pos hn

/-- The two halves of a value make the value (R145). -/
theorem wide_of_halves {s : State} {x : Nat} (h0 : s.l0 = x / 2 ^ s.cfg.width) (h1 : s.l1 = x % 2 ^ s.cfg.width) :
    s.wide = x := by
  rw [State.wide, State.width_eq, h0, h1, Nat.div_add_mod']

/-- Settles O24: BARRETT's two completions, on any two operands and on the halves of a product. -/
theorem barrettResult : Obligations.BarrettResult := by
  refine ⟨rfl, fun s => ⟨exec_barrett_of_zero, exec_barrett_of_modulus, fun a b hn h0 h1 => ?_⟩⟩
  rw [exec_barrett_of_modulus hn, wide_of_halves h0 h1]
  rfl

/-! ### Barrett's estimate (R146) -/

/-- Dividing by `b`, multiplying by `b * c div n` and dividing by `c` never gives more than dividing by `n`. -/
theorem twoStepQuotient_mul_le {b c : Nat} (hb : 0 < b) (hc : 0 < c) (n X : Nat) :
    X / b * (b * c / n) / c * n ≤ X := by
  refine Nat.le_of_mul_le_mul_right ?_ (Nat.mul_pos hb hc)
  calc X / b * (b * c / n) / c * n * (b * c)
      = X / b * (b * c / n) / c * c * (b * n) := by ring
    _ ≤ X / b * (b * c / n) * (b * n) := Nat.mul_le_mul_right _ (Nat.div_mul_le_self _ c)
    _ = X / b * b * (b * c / n * n) := by ring
    _ ≤ X * (b * c) := Nat.mul_le_mul (Nat.div_mul_le_self X b) (Nat.div_mul_le_self _ n)

/-- For a modulus of at least `b` and `X` below `b * c`, each of the three divisions loses less than one `n`. -/
theorem lt_twoStepQuotient_add_three_mul {b c n X : Nat} (hb : 0 < b) (hn : b ≤ n) (hX : X < b * c) :
    X < (X / b * (b * c / n) / c + 3) * n := by
  have hnpos : 0 < n := hb.trans_le hn
  have hc : 0 < c := Nat.pos_of_mul_pos_left (Nat.zero_lt_of_lt hX)
  set mu := b * c / n with hmu
  set q := X / b * mu / c with hq
  have hmu_le : mu ≤ c := Nat.div_le_of_le_mul (Nat.mul_le_mul_right c hn)
  have hXmu : X * mu ≤ (q + 2) * (b * c) :=
    calc X * mu ≤ b * (X / b + 1) * mu := Nat.mul_le_mul_right _ (Nat.lt_mul_div_succ X hb).le
      _ = b * (X / b * mu) + b * mu := by ring
      _ ≤ b * (c * (q + 1)) + b * c :=
          Nat.add_le_add (Nat.mul_le_mul_left b (Nat.lt_mul_div_succ _ hc).le) (Nat.mul_le_mul_left b hmu_le)
      _ = (q + 2) * (b * c) := by ring
  refine Nat.lt_of_mul_lt_mul_right (a := b * c) ?_
  calc X * (b * c) ≤ X * (n * (mu + 1)) := Nat.mul_le_mul_left X (Nat.lt_mul_div_succ _ hnpos).le
    _ = (X * mu + X) * n := by ring
    _ < ((q + 2) * (b * c) + b * c) * n := Nat.mul_lt_mul_of_pos_right (Nat.add_lt_add_of_le_of_lt hXmu hX) hnpos
    _ = (q + 3) * n * (b * c) := by ring

/-- The two divisors of R146 make `2^(2k)`. -/
theorem barrett_divisors {k : Nat} (hk : 1 ≤ k) : 2 ^ (k - 1) * 2 ^ (k + 1) = 2 ^ (2 * k) := by
  rw [← pow_add]
  congr 1
  omega

theorem barrettQuotient_mul_le {k : Nat} (hk : 1 ≤ k) (n X : Nat) : barrettQuotient k n X * n ≤ X := by
  rw [barrettQuotient, ← barrett_divisors hk]
  exact twoStepQuotient_mul_le (Nat.two_pow_pos _) (Nat.two_pow_pos _) n X

/-- For a modulus of full width the estimate leaves less than `3n` (R146). -/
theorem barrettRest_lt {k n X : Nat} (hk : 1 ≤ k) (hn : 2 ^ (k - 1) ≤ n) (hX : X < 2 ^ (2 * k)) :
    barrettRest k n X < 3 * n := by
  rw [← barrett_divisors hk] at hX
  have hlt := lt_twoStepQuotient_add_three_mul (Nat.two_pow_pos _) hn hX
  rw [barrett_divisors hk, Nat.add_mul] at hlt
  exact Nat.sub_lt_left_of_lt_add (barrettQuotient_mul_le hk n X) hlt

theorem barrettRest_mod {k : Nat} (hk : 1 ≤ k) (n X : Nat) : barrettRest k n X % n = X % n := by
  rw [barrettRest, Nat.mul_comm]
  exact Nat.sub_mul_mod (Nat.mul_comm n _ ▸ barrettQuotient_mul_le hk n X)

/-- Correcting with enough passes is reducing (R146). -/
theorem barrettCorrect_eq_mod {n : Nat} : ∀ {fuel r : Nat}, r < (fuel + 1) * n → barrettCorrect fuel r n = r % n
  | 0, r, h => (Nat.mod_eq_of_lt (by rwa [Nat.zero_add, Nat.one_mul] at h)).symm
  | fuel + 1, r, h => by
    rw [Nat.succ_mul] at h
    unfold barrettCorrect
    split
    · next hle => rw [barrettCorrect_eq_mod (by omega), ← Nat.mod_eq_sub_mod hle]
    · next hlt => exact (Nat.mod_eq_of_lt (by omega)).symm

/-- `X` passes are enough for any modulus (R146). -/
theorem barrettCorrect_rest {k n : Nat} (hk : 1 ≤ k) (hn : 0 < n) (X : Nat) :
    barrettCorrect X (barrettRest k n X) n = X % n := by
  have hle : barrettRest k n X ≤ X := Nat.sub_le _ _
  rw [barrettCorrect_eq_mod (hle.trans_lt (X.lt_succ_self.trans_le (Nat.le_mul_of_pos_right _ hn))),
    barrettRest_mod hk]

/-- Settles O25: the estimate is never too large, and what it leaves is corrected by as many passes as it has `n`s. -/
theorem barrettEstimateIsExact : Obligations.BarrettEstimateIsExact := by
  refine ⟨fun k n X hk hn hX => ⟨barrettQuotient_mul_le hk n X, barrettCorrect_rest hk hn X, fun hfull _ => ?twoPasses⟩,
    fun s hs hn => ?barrett⟩
  case twoPasses => rw [barrettCorrect_eq_mod (barrettRest_lt hk hfull hX), barrettRest_mod hk]
  case barrett =>
    rw [barrettCorrect_rest (Nat.one_le_iff_ne_zero.mpr hs.width_ne_zero) (Nat.pos_of_ne_zero hn)]
    exact exec_barrett_of_modulus hn

end Sys2Proof.Machine
end

section
/-! SUPPORT. The statements about MODPOW: its completions, and the number of products of the binary chain
(spec/43_modpow.md). -/

namespace Sys2Proof.Machine

/-! ### MODPOW (R161) -/

theorem exec_modpow_of_zero {s : State} (hn : s.l2 = 0) : exec .modpow s = .next (s.finish .domain) := if_pos hn

theorem exec_modpow_of_modulus {s : State} (hn : s.l2 ≠ 0) :
    exec .modpow s = .next ((s.withRes0 (modPow s.l0 s.l1 s.l2)).finish .none) := if_neg hn

/-- Settles O26: MODPOW's two completions, and the chain's value as a power. -/
theorem modpowResult : Obligations.ModpowResult := by
  refine ⟨rfl, fun s => ⟨exec_modpow_of_zero, fun hn => ?_⟩⟩
  rw [← modPow_eq]
  exact exec_modpow_of_modulus hn

/-! ### The chain's products (R160, R163) -/

/-- Counting the products leaves the value of the chain as it is (R160). -/
theorem modPowCountedLoop_fst : ∀ fuel r b e n count,
    (modPowCountedLoop fuel r b e n count).1 = modPowLoop fuel r b e n
  | 0, _, _, _, _, _ => rfl
  | fuel + 1, r, b, e, n, count => by
    unfold modPowCountedLoop modPowLoop
    by_cases he : e = 0
    · simp [he]
    · simp only [if_neg he, modPowCountedLoop_fst fuel]
      split <;> rfl

theorem modPowCounted_fst (base e n : Nat) : (modPowCounted base e n).1 = modPow base e n :=
  modPowCountedLoop_fst ..

/-- The lowest bit of an exponent and the bits of its half, which is what a round of the chain looks at (R160). -/
theorem bits_eq_cons_half {e : Nat} (he : e ≠ 0) : e.bits = decide (e % 2 = 1) :: (e / 2).bits := by
  obtain ⟨k, rfl | rfl⟩ := e.even_or_odd'
  · rw [Nat.bit0_bits k (by omega), Nat.mul_div_cancel_left k two_pos, Nat.mul_mod_right]
    rfl
  · rw [Nat.bit1_bits, show (2 * k + 1) / 2 = k by omega, show (2 * k + 1) % 2 = 1 by omega]
    rfl

/-- A round squares for each bit of the exponent, and multiplies for each bit that is 1 (R163). -/
theorem modPowCountedLoop_snd : ∀ fuel r b e n count, e ≤ fuel →
    (modPowCountedLoop fuel r b e n count).2 = count + (e.bits.length + e.bits.count true)
  | 0, r, b, e, n, count, h => by
    obtain rfl := Nat.le_zero.mp h
    simp [modPowCountedLoop]
  | fuel + 1, r, b, e, n, count, h => by
    unfold modPowCountedLoop
    by_cases he : e = 0
    · simp [he]
    · rw [if_neg he, modPowCountedLoop_snd fuel _ _ _ n _ (by omega), bits_eq_cons_half he]
      by_cases hodd : e % 2 = 1
      · simp only [countedProduct, hodd, if_true, decide_true, List.length_cons, List.count_cons_self]
        omega
      · simp only [countedProduct, hodd, if_false, decide_false, List.length_cons,
          List.count_cons_of_ne Bool.false_ne_true]
        omega

theorem modPowCounted_snd (base e n : Nat) : (modPowCounted base e n).2 = e.size + e.bits.count true := by
  rw [modPowCounted, modPowCountedLoop_snd e _ _ e n 0 le_rfl, Nat.zero_add, Nat.size_eq_bits_len]

/-- Settles O27: the counted chain has the chain's value, and no more bits of the exponent are 1 than it has bits. -/
theorem binaryChainIsShort : Obligations.BinaryChainIsShort := by
  refine ⟨fun base e n => ⟨modPowCounted_fst base e n, modPowCounted_snd base e n, ?bound⟩, fun s hn => ?modpow⟩
  case bound =>
    have hones : e.bits.count true ≤ e.size := Nat.size_eq_bits_len e ▸ List.count_le_length
    rw [modPowCounted_snd]
    omega
  case modpow =>
    rw [modPowCounted_fst]
    exact exec_modpow_of_modulus hn

end Sys2Proof.Machine
end

section
/-! SUPPORT. The statements about RSAKEY, RSAENC, RSADEC and KEYCLR: the completions, and that the exponents of a
key from distinct primes undo each other (spec/44_rsa.md). -/

namespace Sys2Proof.Machine

/-! ### RSAKEY (R181) -/

theorem exec_rsakey_of_small {s : State} (h : s.l0 < 2 ∨ s.l1 < 2) : exec .rsakey s = .next (s.finish .domain) :=
  if_pos h

theorem exec_rsakey_of_wide {s : State} (h0 : 2 ≤ s.l0) (h1 : 2 ≤ s.l1) (hw : 2 ^ s.cfg.width ≤ s.l0 * s.l1) :
    exec .rsakey s = .next (s.finish .domain) :=
  (if_neg (not_or_intro h0.not_gt h1.not_gt)).trans (if_pos hw)

/-- Past the checks of the factors only the exponent's check is left (R181). -/
theorem exec_rsakey_of_factors {s : State} (h0 : 2 ≤ s.l0) (h1 : 2 ≤ s.l1) (hw : s.l0 * s.l1 < 2 ^ s.cfg.width) :
    exec .rsakey s =
      if gcdE s.l2 (lambda s.l0 s.l1) ≠ 1 then .next (s.finish .invalidExponent)
      else .next ((s.withKey (s.l0 * s.l1) s.l2 (modInvExists s.l2 (lambda s.l0 s.l1))).finish .none) :=
  (if_neg (not_or_intro h0.not_gt h1.not_gt)).trans (if_neg hw.not_ge)

/-- Settles O28: RSAKEY's checks in their order, and the key with the inverse that the last check leaves to exist. -/
theorem rsakeyResult : Obligations.RsakeyResult := by
  refine ⟨rfl, fun s => ⟨exec_rsakey_of_small, exec_rsakey_of_wide, fun h0 h1 hw hgcd => ?noInverse,
    fun h0 h1 hw hgcd => ?key⟩⟩
  case noInverse => exact (exec_rsakey_of_factors h0 h1 hw).trans (if_pos (by rwa [gcdE_eq_gcd]))
  case key =>
    obtain ⟨hinv, hlt, hmul⟩ := modInvExists_spec s.l2 (lambda s.l0 s.l1) (State.lambda_bounds h0 h1).1 hgcd
    exact ⟨_, hinv, hlt, hmul, (exec_rsakey_of_factors h0 h1 hw).trans (if_neg (by rwa [gcdE_eq_gcd, not_not]))⟩

/-- A command that ends without error passed its check (R204). -/
theorem noError_of_check {bad : Prop} [Decidable bad] {c : ErrCode} {s t : State} {r : Result}
    (h : (if bad then raiseError c s else r) = .next t) (hc : c ≠ .none) (herr : t.err = .none) :
    ¬ bad ∧ r = .next t := by
  split at h
  · cases h; exact absurd herr hc
  · next hok => exact ⟨hok, h⟩

/-- RSAKEY ends without error only where the exponent has an inverse, and then it has written the key (R181). -/
theorem rsakey_key_of_noError {s t : State} (h : exec .rsakey s = .next t) (herr : t.err = .none) :
    Nat.gcd s.l2 (lambda s.l0 s.l1) = 1 ∧
      t = (s.withKey (s.l0 * s.l1) s.l2 (modInvExists s.l2 (lambda s.l0 s.l1))).finish .none := by
  obtain ⟨-, h⟩ := noError_of_check h nofun herr
  obtain ⟨-, h⟩ := noError_of_check h nofun herr
  obtain ⟨hgcd, h⟩ := noError_of_check h nofun herr
  exact ⟨gcdE_eq_gcd _ _ ▸ not_not.mp hgcd, (Host.Outcome.next.inj h).symm⟩

/-! ### RSAENC and RSADEC (R184, R185) -/

/-- The rule that RSAENC and RSADEC share: RES0 takes the power of L[0] to an exponent of the key (R184, R185). -/
def keyPower (k : Nat) (s : State) : Result :=
  if s.keyValid = false then raiseError .keyNotValid s
  else if s.keyN ≤ s.l0 then raiseError .domain s
  else complete (s.withRes0 (modPow s.l0 k s.keyN))

theorem exec_rsaenc (s : State) : exec .rsaenc s = keyPower s.keyE s := rfl

theorem exec_rsadec (s : State) : exec .rsadec s = keyPower s.keyD s := rfl

section
variable {k : Nat} {s : State}

theorem keyPower_of_noKey (hk : s.keyValid = false) : keyPower k s = .next (s.finish .keyNotValid) := if_pos hk

theorem keyPower_of_large (hk : s.keyValid = true) (hm : s.keyN ≤ s.l0) : keyPower k s = .next (s.finish .domain) :=
  (if_neg (by simp [hk])).trans (if_pos hm)

theorem keyPower_of_message (hk : s.keyValid = true) (hm : s.l0 < s.keyN) :
    keyPower k s = .next ((s.withRes0 (s.l0 ^ k % s.keyN)).finish .none) := by
  rw [← modPow_eq]
  exact (if_neg (by simp [hk])).trans (if_neg hm.not_ge)

end

/-- Settles O29: the shared rule at KEY_E. -/
theorem rsaencResult : Obligations.RsaencResult :=
  ⟨rfl, fun _ => ⟨keyPower_of_noKey, keyPower_of_large, keyPower_of_message⟩⟩

/-- Settles O30: the shared rule at KEY_D. -/
theorem rsadecResult : Obligations.RsadecResult :=
  ⟨rfl, fun _ => ⟨keyPower_of_noKey, keyPower_of_large, keyPower_of_message⟩⟩

/-! ### KEYCLR (R187) -/

theorem exec_keyclr (s : State) : exec .keyclr s = .next (s.withoutKey.finish .none) := rfl

/-- Settles O31: KEYCLR's one completion, and the shared rule without a key. -/
theorem keyclrResult : Obligations.KeyclrResult := by
  refine ⟨rfl, exec_keyclr, fun s t u hclr hu => ?_⟩
  cases hclr
  exact ⟨keyPower_of_noKey hu, keyPower_of_noKey hu⟩

/-! ### The round trip (R186) -/

/-- Fermat's theorem for every message, one that the prime divides included. -/
theorem pow_modEq_self_of_modEq_one {p k : Nat} (hp : p.Prime) (hk : 0 < k) (h : k ≡ 1 [MOD p - 1]) (m : Nat) :
    m ^ k ≡ m [MOD p] := by
  have hdvd : p - 1 ∣ k - 1 := (Nat.modEq_iff_dvd' hk).mp h.symm
  rw [← Int.natCast_modEq_iff]
  simpa using Int.ModEq.pow_eq_pow hp hdvd hk one_pos m

/-- `λ` is 1 for `p = q = 2` only (R180). -/
theorem lambda_ne_one {p q : Nat} (hne : p ≠ q) : lambda p q ≠ 1 := fun h => by
  obtain ⟨hp, hq⟩ := mul_eq_one.mp h
  omega

/-- Modulo a product of distinct primes, exponents that are inverse modulo `λ` undo each other (R186). -/
theorem pow_pow_mod_of_inverse {p q e d m : Nat} (hp : p.Prime) (hq : q.Prime) (hne : p ≠ q)
    (hinv : e * d ≡ 1 [MOD lambda p q]) (hm : m < p * q) : (m ^ e % (p * q)) ^ d % (p * q) = m := by
  have hpos : 0 < e * d := by
    refine Nat.pos_of_ne_zero fun h0 => lambda_ne_one hne ?_
    rw [h0] at hinv
    exact Nat.dvd_one.mp ((Nat.modEq_iff_dvd' zero_le_one).mp hinv)
  have hmod : m ^ (e * d) ≡ m [MOD p * q] :=
    (Nat.modEq_and_modEq_iff_modEq_mul ((Nat.coprime_primes hp hq).mpr hne)).mp
      ⟨pow_modEq_self_of_modEq_one hp hpos (hinv.of_mul_right _) m,
        pow_modEq_self_of_modEq_one hq hpos (hinv.of_mul_left _) m⟩
  rw [← Nat.pow_mod, ← pow_mul, hmod, Nat.mod_eq_of_lt hm]

/-- Settles O32: the key that RSAKEY wrote holds exponents that are inverse modulo `λ`, and they undo each other. -/
theorem rsaRoundTrip : Obligations.RsaRoundTrip := by
  intro s t u v x y hp hq hne hkey herr huv hun hue hm henc hxv hxn hxd hx0 hdec
  obtain ⟨hgcd, rfl⟩ := rsakey_key_of_noError hkey herr
  obtain ⟨-, -, hinv⟩ := modInvExists_spec _ _ (State.lambda_bounds hp.two_le hq.two_le).1 hgcd
  rw [exec_rsaenc, keyPower_of_message huv hm] at henc
  cases henc
  have hcipher : x.l0 < x.keyN := by
    rw [hx0, hxn, ← hun]
    exact Nat.mod_lt _ (Nat.zero_lt_of_lt hm)
  rw [exec_rsadec, keyPower_of_message hxv hcipher] at hdec
  cases hdec
  refine ⟨rfl, rfl, ?_⟩
  rw [State.finish_res0, State.withRes0_res0, hx0, State.finish_res0, State.withRes0_res0, hun, hue, hxn, hxd]
  exact pow_pow_mod_of_inverse hp hq hne hinv (hm.trans_eq hun)

end Sys2Proof.Machine
end

section
/-! SUPPORT. The statements about errors and the interrupt: what a completion with an error leaves alone, which codes
each command ends with and in which order, and what raises and lowers `irq` (spec/60_exceptions.md). -/

namespace Sys2Proof.Machine

/-! ### An error changes STATUS only (R204) -/

@[simp] theorem Update.apply_ie (u : Update) (s : State) : (u.apply s).ie = s.ie := by cases u <;> rfl

/-- Of the updates, only an error's leaves a code in ERR, and it writes nothing else (R204). -/
theorem Update.apply_eq_finish {u : Update} {s : State} (herr : (u.apply s).err ≠ .none) :
    u.apply s = s.finish (u.apply s).err := by
  cases u with
  | error c => rfl
  | _ => exact absurd rfl herr

/-- The engine's turn during a command makes one update (R40). -/
theorem engineTurn_update {s t : State} (hb : s.busy = true) (h : engineTurn s = .next t) :
    ∃ u : Update, t = u.apply s := by
  obtain ⟨u, -, hturn⟩ := engineTurn_determined s
  exact ⟨u, Host.Outcome.next.inj (h.symm.trans (hturn s hb rfl (.refl _ s)))⟩

/-- Settles O34: the turn makes one update, and an update that leaves an error only finishes the command. -/
theorem errorChangesOnlyStatus : Obligations.ErrorChangesOnlyStatus := by
  intro s t hb h herr
  obtain ⟨u, rfl⟩ := engineTurn_update hb h
  exact Update.apply_eq_finish herr

/-! ### The codes of each command (R202) -/

theorem err_of_complete {s t : State} (h : complete s = .next t) : t.err = .none := by
  cases h; rfl

/-- A command goes on past a check, or ends with the check's code. -/
theorem next_or_err_of_check {bad : Prop} [Decidable bad] {c : ErrCode} {s t : State} {r : Result}
    (h : (if bad then raiseError c s else r) = .next t) : r = .next t ∨ t.err = c := by
  split at h
  · cases h; exact .inr rfl
  · exact .inl h

/-- A command with one check ends with its code or with none. -/
theorem err_of_check {bad : Prop} [Decidable bad] {c : ErrCode} {s s' t : State}
    (h : (if bad then raiseError c s else complete s') = .next t) : t.err = .none ∨ t.err = c :=
  (next_or_err_of_check h).imp_left err_of_complete

theorem err_of_modinv {s t : State} (h : exec .modinv s = .next t) :
    t.err = .none ∨ t.err = .domain ∨ t.err = .noInverse := by
  by_cases hn : s.l2 = 0
  · cases (exec_modinv_of_zero hn).symm.trans h
    exact .inr (.inl rfl)
  · by_cases hg : Nat.gcd s.l0 s.l2 = 1
    · cases (exec_modinv_of_coprime hn hg).symm.trans h
      exact .inl rfl
    · cases (exec_modinv_of_not_coprime hn hg).symm.trans h
      exact .inr (.inr rfl)

theorem err_of_keyPower {k : Nat} {s t : State} (h : keyPower k s = .next t) :
    t.err = .none ∨ t.err = .keyNotValid ∨ t.err = .domain := by
  obtain h | hkey := next_or_err_of_check h
  · exact (err_of_check h).imp_right .inr
  · exact .inr (.inl hkey)

/-- Settles O35: the checks of each command, in the model's order. -/
theorem errorCodesOfEachCommand : Obligations.ErrorCodesOfEachCommand := by
  intro i s t h
  cases i with
  | gcd => exact err_of_complete h
  | xgcd => exact err_of_complete h
  | keyclr => exact err_of_complete h
  | modred _ => exact err_of_check h
  | modmul => exact err_of_check h
  | barrett => exact err_of_check h
  | modpow => exact err_of_check h
  | montmul => exact (next_or_err_of_check h).elim err_of_check .inr
  | modinv => exact err_of_modinv h
  | rsakey =>
    obtain h | hsmall := next_or_err_of_check h
    · obtain h | hwide := next_or_err_of_check h
      · exact (err_of_check h).imp_right .inr
      · exact .inr (.inl hwide)
    · exact .inr (.inl hsmall)
  | rsaenc => exact err_of_keyPower h
  | rsadec => exact err_of_keyPower h

/-! ### The first error of the order is reported (R203) -/

theorem err_of_finish {c : ErrCode} {s t : State} {r : Result} (hr : r = .next (s.finish c)) (h : r = .next t) :
    t.err = c := by
  cases hr.symm.trans h; rfl

/-- RSAKEY checks the factors before the exponent, whatever the exponent is (R181, R203). -/
theorem exec_rsakey_of_badFactors {s : State} (h : s.l0 < 2 ∨ s.l1 < 2 ∨ 2 ^ s.cfg.width ≤ s.l0 * s.l1) :
    exec .rsakey s = .next (s.finish .domain) := by
  by_cases hsmall : s.l0 < 2 ∨ s.l1 < 2
  · exact exec_rsakey_of_small hsmall
  · obtain ⟨h0, h1⟩ := not_or.mp hsmall
    exact exec_rsakey_of_wide (not_lt.mp h0) (not_lt.mp h1) ((or_assoc.mpr h).resolve_left hsmall)

/-- Settles O36: in each case the command finishes with the first code, and nothing after that check is read. -/
theorem firstErrorWins : Obligations.FirstErrorWins := by
  refine fun s t => ⟨fun hb hd => ?illegal, fun hk => ?noKey, fun hk hm => ?message, fun hn => ?modulus,
    fun hbad => ?factors⟩
  case illegal => exact err_of_finish (engineTurn_of_illegal hb hd)
  case noKey =>
    rw [exec_rsaenc, exec_rsadec, keyPower_of_noKey hk, keyPower_of_noKey hk, or_self]
    exact err_of_finish rfl
  case message =>
    rw [exec_rsaenc, exec_rsadec, keyPower_of_large hk hm, keyPower_of_large hk hm, or_self]
    exact err_of_finish rfl
  case modulus => exact err_of_finish (exec_modinv_of_zero hn)
  case factors => exact err_of_finish (exec_rsakey_of_badFactors hbad)

/-! ### The interrupt (R209, R210) -/

/-- While DONE is 0 the interrupt is low, whatever IE is (R209). -/
theorem irq_of_not_done {s : State} (hd : s.done = false) : s.irq = false := by
  rw [State.irq, hd, Bool.and_false]

/-- A completion sets DONE, so the interrupt follows IE (R40, R209). -/
theorem irq_apply (u : Update) (s : State) : (u.apply s).irq = s.ie := by
  rw [State.irq, u.apply_done, Bool.and_true, u.apply_ie]

theorem hostAccess_writeCtrl (s : State) (v : Word) :
    hostAccess (.write (s.cfg.base + 0x0200) 4 v) s = .next (s.writeCtrl v) :=
  hostAccess_write s v (by decide) (by decide)

/-- Settles O39: a completion sets DONE, a CTRL write sets IE, and the three clears of DONE lower the interrupt. -/
theorem interruptFollowsDone : Obligations.InterruptFollowsDone := by
  refine ⟨fun _ => rfl, fun s t hb h => ?completion, fun s v => ?ctrl, fun s t v hv h => ?status,
    fun s t c hb h => ?cmd, fun s => irq_of_not_done rfl⟩
  case completion =>
    obtain ⟨u, rfl⟩ := engineTurn_update hb h
    exact irq_apply u s
  case ctrl =>
    rw [hostAccess_writeCtrl, writeCtrl_eq]
    exact ⟨_, rfl, rfl, rfl, rfl⟩
  case status =>
    cases (statusWrite s v).symm.trans h
    exact irq_of_not_done (if_pos hv)
  case cmd =>
    cases ((commandAcceptance s c).2 hb).symm.trans h
    exact irq_of_not_done rfl

end Sys2Proof.Machine
end
